-- ==== Sys2Proof/Word.lean ====
section
/-! DEFINITION. The word types of the block: the widths of 00_scope.md rule R5, one name each.
DESIGN CHOICE, safe: the parameters at their defaults (log entry 6). -/

namespace Sys2Proof

/-- One raw byte, `BYTE_W` = 8 bits, unsigned (R5, R6). -/
abbrev Byte := BitVec 8

/-- A raw reading packed in a word, byte0 in bits 31:24 (R61). -/
abbrev RawWord := BitVec 32

/-- Output counts, `COUNTS_W` = 14 bits, unsigned (R62). -/
abbrev Counts := BitVec 14

/-- The status code, `STATUS_W` = 2 bits (R63). -/
abbrev StatusCode := BitVec 2

/-- The opaque bus address, `ADDR_W` = 8 bits (R14). -/
abbrev BusAddr := BitVec 8

/-- A rated pressure, SQ16.16 in `MP_W` = 32 bits (R8, R65). -/
abbrev RatedPressure := BitVec 32

/-- A pressure, SQ32.16 in `P_W` = 48 bits (R8, R66). -/
abbrev Pressure := BitVec 48

/-- The value field of a response, 48 bits (R80, R82). -/
abbrev Value := BitVec 48

/-- The failure information field, `INFO_W` = 2 bits; also the transport cause (R43, R83). -/
abbrev Info := BitVec 2

/-- An opcode, 3 bits (R70, R71). -/
abbrev OpBits := BitVec 3

/-- A command word, `CMD_W` = 44 bits (R71). -/
abbrev CmdWord := BitVec 44

/-- A response word, `RSP_W` = 57 bits (R80). -/
abbrev RspWord := BitVec 57

end Sys2Proof
end

