-- ==== Sys2Proof/Syntax.lean ====
section
/-! DEFINITION. The instructions: the ten rows of opcode_table.json (30_encoding.md rules R70, R72). -/

namespace Sys2Proof

/-- One constructor per row of the table; GET_PRESSURE and GET_STATUS have a raw and a bus form (R70). -/
inductive Instr where
  /-- CONSTRUCT addr, maxp, autocal (R93). -/
  | construct (addr : BusAddr) (maxp : RatedPressure) (autocal : Bool)
  /-- FETCH_RAW (R112). -/
  | fetchRaw
  /-- DECODE_COUNTS raw (R121). -/
  | decodeCounts (raw : RawWord)
  /-- DECODE_STATUS raw (R123). -/
  | decodeStatus (raw : RawWord)
  /-- GET_PRESSURE.R raw (R141). -/
  | getPressureR (raw : RawWord)
  /-- GET_PRESSURE.B (R142). -/
  | getPressureB
  /-- GET_STATUS.R raw (R146). -/
  | getStatusR (raw : RawWord)
  /-- GET_STATUS.B (R147). -/
  | getStatusB
  /-- CALIBRATE (R161). -/
  | calibrate
  /-- DISCARD (R96). -/
  | discard
  deriving DecidableEq, Repr

end Sys2Proof
end

