-- ==== Sys2Proof/WellFormed.lean ====
section
/-! DEFINITION. Well-formedness: of instructions (30_encoding.md R74: no operand is illegal), of command words (the list of
illegal words in R74), and of the lines of a command program as a caller writes them (R75). -/

namespace Sys2Proof

/-- Every term of `Instr` is well-formed: each operand's width is in its type, and no operand value is illegal as an encoding
("A raw operand is never illegal", "Every word with op = 0 is legal as an encoding", R74). -/
def Instr.wellFormed : Instr → Bool
  | .construct _ _ _ => true
  | .fetchRaw => true
  | .decodeCounts _ => true
  | .decodeStatus _ => true
  | .getPressureR _ => true
  | .getPressureB => true
  | .getStatusR _ => true
  | .getStatusB => true
  | .calibrate => true
  | .discard => true

/-- A word R74 lists as illegal, written from that list: by opcode, which of `f`, `hi`, `lo` make it so. -/
def CmdWord.illegal (w : CmdWord) : Bool :=
  let op := w.toNat / 2 ^ 41
  let f := w.toNat / 2 ^ 40 % 2
  let hi := w.toNat / 2 ^ 32 % 2 ^ 8
  let lo := w.toNat % 2 ^ 32
  (decide (op = 1 ∨ op = 6 ∨ op = 7) && decide (f = 1 ∨ hi ≠ 0 ∨ lo ≠ 0))
    || (decide (op = 2 ∨ op = 3) && decide (f = 0 ∨ hi ≠ 0))
    || (decide (op = 4 ∨ op = 5) && decide (hi ≠ 0 ∨ (f = 0 ∧ lo ≠ 0)))

/-- A decimal numeral, mantissa / 10^places, as `maxp` is written in a program line (R75). -/
structure Decimal where
  mantissa : Int
  places : Nat
  deriving DecidableEq, Repr

/-- The SQ16.16 raw value `maxp * 65536` of a decimal (R75): none where it is no integer in [-2^31, 2^31 - 1]. -/
def Decimal.sq16 (d : Decimal) : Option Int :=
  let n := d.mantissa * 65536
  let q := n / (10 ^ d.places : Nat)
  if q * (10 ^ d.places : Nat) = n ∧ -2 ^ 31 ≤ q ∧ q ≤ 2 ^ 31 - 1 then some q else none

/-- One line of a command program: the mnemonic and its operands as written, bytes as numbers (R75). `readBoth` is the
spec's pseudo-command READ_BOTH. -/
inductive Line where
  | construct (addr : Nat) (maxp : Decimal) (autocal : Bool)
  | fetchRaw
  | decodeCounts (bytes : List Nat)
  | decodeStatus (bytes : List Nat)
  | getPressure (bytes : Option (List Nat))
  | getStatus (bytes : Option (List Nat))
  | calibrate
  | discard
  | readBoth
  deriving DecidableEq, Repr

/-- A written raw operand has exactly four bytes, each in [0, 255] (R60, R75). -/
def rawBytesOk (bytes : List Nat) : Bool :=
  decide (bytes.length = 4) && bytes.all (fun b => decide (b < 256))

/-- The checks on a written line: an 8-bit address, a `maxp` that is a 32-bit SQ16.16 value, four raw bytes (R75). -/
def Line.wellFormed : Line → Bool
  | .construct addr maxp _ => decide (addr < 256) && maxp.sq16.isSome
  | .fetchRaw => true
  | .decodeCounts bytes => rawBytesOk bytes
  | .decodeStatus bytes => rawBytesOk bytes
  | .getPressure (some bytes) => rawBytesOk bytes
  | .getPressure none => true
  | .getStatus (some bytes) => rawBytesOk bytes
  | .getStatus none => true
  | .calibrate => true
  | .discard => true
  | .readBoth => true

end Sys2Proof
end

