-- ==== Sys2Proof/Decode.lean ====
section
/-! DEFINITION. The decoder and the encoder of command words (30_encoding.md rules R70 to R74), and the assembler of the
written program lines (R75). Everything is a total function the kernel evaluates. -/

namespace Sys2Proof

/-- The four fields of the one 44-bit format (R71). -/
structure CmdFields where
  op : OpBits
  f : Bool
  hi : BitVec 8
  lo : BitVec 32
  deriving DecidableEq, Repr

/-- The fields of a word: op 43:41, f 40, hi 39:32, lo 31:0 (R71). -/
def unpack (w : CmdWord) : CmdFields :=
  { op := w.extractLsb' 41 3, f := w.getLsbD 40, hi := w.extractLsb' 32 8, lo := w.extractLsb' 0 32 }

/-- The word of the fields, most significant first (R71). -/
def pack (x : CmdFields) : CmdWord :=
  x.op ++ BitVec.ofBool x.f ++ x.hi ++ x.lo

/-- Why a word is illegal (R74); the block answers IllegalCommand whichever it is (R188).
DESIGN CHOICE, safe: the names of the reasons (log entry 7). -/
inductive Illegal where
  /-- `f` = 1 in a command that takes no operand. -/
  | operandFlagSet
  /-- `f` = 0 in a pure decoder, which always takes a raw operand. -/
  | rawOperandMissing
  /-- `hi` is not 0 in a command other than CONSTRUCT. -/
  | hiNotZero
  /-- `lo` is not 0 where no raw operand is present. -/
  | loNotZero
  deriving DecidableEq, Repr

/-- What the total decoder answers: the instruction, or a rejection by name (R74). -/
inductive Decoded where
  | instr (i : Instr)
  | illegal (why : Illegal)
  deriving DecidableEq, Repr

/-- A command without operands: `f`, `hi` and `lo` must be 0 (R72). -/
def noOperand (x : CmdFields) (i : Instr) : Decoded :=
  if x.f then .illegal .operandFlagSet
  else if x.hi ≠ 0 then .illegal .hiNotZero
  else if x.lo ≠ 0 then .illegal .loNotZero
  else .instr i

/-- A command that always takes a raw operand: `f` must be 1 and `hi` 0 (R72). -/
def rawOperand (x : CmdFields) (i : RawWord → Instr) : Decoded :=
  if x.f = false then .illegal .rawOperandMissing
  else if x.hi ≠ 0 then .illegal .hiNotZero
  else .instr (i x.lo)

/-- A command with a raw form (`f` = 1) and a bus form (`f` = 0, `lo` = 0); `hi` must be 0 in both (R72). -/
def rawOrBus (x : CmdFields) (raw : RawWord → Instr) (bus : Instr) : Decoded :=
  if x.hi ≠ 0 then .illegal .hiNotZero
  else if x.f then .instr (raw x.lo)
  else if x.lo ≠ 0 then .illegal .loNotZero
  else .instr bus

/-- Decoding by opcode (R70, R72, R73). -/
def decodeFields (x : CmdFields) : Decoded :=
  match x.op.toFin with
  | 0 => .instr (.construct x.hi x.lo x.f)
  | 1 => noOperand x .fetchRaw
  | 2 => rawOperand x .decodeCounts
  | 3 => rawOperand x .decodeStatus
  | 4 => rawOrBus x .getPressureR .getPressureB
  | 5 => rawOrBus x .getStatusR .getStatusB
  | 6 => noOperand x .calibrate
  | 7 => noOperand x .discard

/-- The decoder, total on every 44-bit word (R74). -/
def decode (w : CmdWord) : Decoded :=
  decodeFields (unpack w)

/-- The opcode of an instruction (R70): also what `rsp_op` echoes (R80). -/
def opcode : Instr → OpBits
  | .construct _ _ _ => 0#3
  | .fetchRaw => 1#3
  | .decodeCounts _ => 2#3
  | .decodeStatus _ => 3#3
  | .getPressureR _ => 4#3
  | .getPressureB => 4#3
  | .getStatusR _ => 5#3
  | .getStatusB => 5#3
  | .calibrate => 6#3
  | .discard => 7#3

/-- The opcode bits 43:41 of any word, legal or not (R188). -/
def opBits (w : CmdWord) : OpBits :=
  (unpack w).op

/-- The fields of an instruction's word, from the patterns of R72. -/
def fieldsOf (i : Instr) : CmdFields :=
  match i with
  | .construct addr maxp autocal => { op := opcode i, f := autocal, hi := addr, lo := maxp }
  | .decodeCounts raw => { op := opcode i, f := true, hi := 0#8, lo := raw }
  | .decodeStatus raw => { op := opcode i, f := true, hi := 0#8, lo := raw }
  | .getPressureR raw => { op := opcode i, f := true, hi := 0#8, lo := raw }
  | .getStatusR raw => { op := opcode i, f := true, hi := 0#8, lo := raw }
  | .fetchRaw => { op := opcode i, f := false, hi := 0#8, lo := 0#32 }
  | .getPressureB => { op := opcode i, f := false, hi := 0#8, lo := 0#32 }
  | .getStatusB => { op := opcode i, f := false, hi := 0#8, lo := 0#32 }
  | .calibrate => { op := opcode i, f := false, hi := 0#8, lo := 0#32 }
  | .discard => { op := opcode i, f := false, hi := 0#8, lo := 0#32 }

/-- The encoder (R72). -/
def encode (i : Instr) : CmdWord :=
  pack (fieldsOf i)

/-- The row of R72 (mask and match) an instruction's word stands under; CONSTRUCT is the single row of opcode_table.json. -/
def rowMask : Instr → CmdWord
  | .construct _ _ _ => 0xE0000000000#44
  | .fetchRaw => 0xFFFFFFFFFFF#44
  | .decodeCounts _ => 0xFFF00000000#44
  | .decodeStatus _ => 0xFFF00000000#44
  | .getPressureR _ => 0xFFF00000000#44
  | .getPressureB => 0xFFFFFFFFFFF#44
  | .getStatusR _ => 0xFFF00000000#44
  | .getStatusB => 0xFFFFFFFFFFF#44
  | .calibrate => 0xFFFFFFFFFFF#44
  | .discard => 0xFFFFFFFFFFF#44

/-- The match value of that row (R72). -/
def rowMatch : Instr → CmdWord
  | .construct _ _ _ => 0x00000000000#44
  | .fetchRaw => 0x20000000000#44
  | .decodeCounts _ => 0x50000000000#44
  | .decodeStatus _ => 0x70000000000#44
  | .getPressureR _ => 0x90000000000#44
  | .getPressureB => 0x80000000000#44
  | .getStatusR _ => 0xB0000000000#44
  | .getStatusB => 0xA0000000000#44
  | .calibrate => 0xC0000000000#44
  | .discard => 0xE0000000000#44

/-- The host's view of the decoder: a command is one 44-bit word, so a number that does not fit is no command.
DESIGN CHOICE, safe (log entry 10). -/
def decodeTableWord (_nbits w : Nat) : Option Instr :=
  if w < 2 ^ 44 then
    match decode (BitVec.ofNat 44 w) with
    | .instr i => some i
    | .illegal _ => none
  else none

/-- The 32-bit raw word of four written bytes (R61, R75). -/
def rawOfNats (bytes : List Nat) : Option RawWord :=
  match bytes with
  | [b0, b1, b2, b3] =>
    if rawBytesOk bytes then
      some (BitVec.ofNat 8 b0 ++ BitVec.ofNat 8 b1 ++ BitVec.ofNat 8 b2 ++ BitVec.ofNat 8 b3)
    else none
  | _ => none

/-- The command a written line stands for (R75): none for a line that is not well-formed, and none for READ_BOTH, which
stands for up to three commands, the later two made from the first one's answer (`readBoth` in Machine/Program.lean). -/
def assemble : Line → Option Instr
  | .construct addr maxp autocal =>
    if addr < 256 then maxp.sq16.map (fun q => .construct (BitVec.ofNat 8 addr) (BitVec.ofInt 32 q) autocal) else none
  | .fetchRaw => some .fetchRaw
  | .decodeCounts bytes => (rawOfNats bytes).map .decodeCounts
  | .decodeStatus bytes => (rawOfNats bytes).map .decodeStatus
  | .getPressure (some bytes) => (rawOfNats bytes).map .getPressureR
  | .getPressure none => some .getPressureB
  | .getStatus (some bytes) => (rawOfNats bytes).map .getStatusR
  | .getStatus none => some .getStatusB
  | .calibrate => some .calibrate
  | .discard => some .discard
  | .readBoth => none

end Sys2Proof
end

