-- ==== Sys2Proof/Config.lean ====
section
/-! DEFINITION. What one block fixes (00_scope.md rule R5) and the one free value: the BusReader's draws (20_memory.md rule R44). -/

namespace Sys2Proof

/-- `OUTPUT_MAX` = 14745, hardwired (R17). -/
def Config.outputMax : Nat := 14745

/-- `OUTPUT_MIN_DEFAULT` = 1638, what CONSTRUCT writes to `output_min` (R5, R16). -/
def Config.outputMinDefault : Counts := 1638#14

/-- `BUS_REG` = 0, the register of every bus request (R40). -/
def Config.busReg : BitVec 8 := 0#8

/-- `BUS_LEN` = 4, the length of every bus request (R40). -/
def Config.busLen : BitVec 3 := 4#3

/-- `MP_F` = 16, the fractional bits of `max_pressure` (R5, R8). -/
def Config.mpFrac : Nat := 16

/-- `P_F` = 16, the fractional bits of `pressure` (R5, R8). -/
def Config.pFrac : Nat := 16

/-- The answer lines of the bus port, `bus_rsp_err`, `bus_rsp_cause[1:0]`, `bus_rsp_count[2:0]`, `bus_rsp_data[31:0]` (R42). -/
structure BusRsp where
  err : Bool
  cause : Info
  count : BitVec 3
  data : BitVec 32
  deriving DecidableEq, Repr, Inhabited

/-- What one bus request meets: an answer on the port (R44), or none ever (R46). -/
inductive BusDraw where
  | answer (rsp : BusRsp)
  | never
  deriving DecidableEq, Repr, Inhabited

/-- FREE VALUE (log entry 2). The draw of the n-th bus request where no draw is lined up: the BusReader is an oracle and no
law relates two draws (R44), so nothing is known of this constant. -/
opaque Config.busDraw : Nat → BusDraw

end Sys2Proof
end

