-- ==== Sys2Proof/Machine/State.lean ====
section
/-! DEFINITION. The state of the machine: the block's registers (10_state.md), the inputs presented to it, the bus, and the
responses given (70_reset_and_hazards.md rule R231). Plain data throughout. -/

namespace Sys2Proof.Machine

/-- The registers S1 to S7 of a constructed instance (R11). A register with a valid bit is an option: `none` is valid bit 0. -/
structure Regs where
  /-- S1 (R14). -/
  busAddr : BusAddr
  /-- S2, SQ16.16 (R15). -/
  maxPressure : RatedPressure
  /-- S3 (R16). -/
  outputMin : Counts
  /-- S4 (R18). -/
  calibrated : Bool
  /-- S5 with its valid bit `counts_valid` (R19). -/
  outputCounts : Option Counts
  /-- S6 with its valid bit `pressure_valid`, SQ32.16 (R20). -/
  pressure : Option Pressure
  /-- S7 with its valid bit `status_valid` (R21). -/
  status : Option StatusCode
  deriving DecidableEq, Repr

/-- The state of the block: a sum type, so that no register of an instance that does not exist can be read (R10). Which of
the two it is, is `life` (S0, R13). -/
inductive Block where
  | unconstructed
  | constructed (regs : Regs)
  deriving DecidableEq, Repr

/-- The seven failure kinds with what each records (R180); the transport cause and the short count are its `info` (R83). -/
inductive Failure where
  | invalidConfiguration
  | busError (cause : Info)
  | shortRead (count : Info)
  | degenerateCalibration
  | notConstructed
  | alreadyConstructed
  | illegalCommand
  deriving DecidableEq, Repr

/-- How a command ended: with a value, or with a failure (R80). -/
inductive Result where
  | ok (value : Value)
  | fail (kind : Failure)
  deriving DecidableEq, Repr

/-- The response of one command: the opcode answered, the warning bit, the result (R80). -/
structure Response where
  op : OpBits
  warn : Bool
  result : Result
  deriving DecidableEq, Repr

/-- One request on the bus port (R42). -/
structure BusRequest where
  addr : BusAddr
  reg : BitVec 8
  len : BitVec 3
  deriving DecidableEq, Repr

/-- The bus as the block meets it. `lined` is the draws lined up for the next requests, next one first; after the last, the
draw is the free value `Config.busDraw` (R44, log entry 2). `requests` is every request issued, oldest first (R231). -/
structure Bus where
  lined : List BusDraw
  requests : List BusRequest
  deriving DecidableEq, Repr

/-- What the outside presents: a command word (R84), or an assertion of `rst` (R210). -/
inductive Input where
  | command (w : CmdWord)
  | reset
  deriving DecidableEq, Repr

/-- The state of the machine. -/
structure State where
  /-- The block's own state `S` (R10, R11). -/
  block : Block
  /-- The command whose bus request has no answer, if there is one; `cmd_ready` is 0 while there is (R26 (b), R46, R84). -/
  waiting : Option Instr
  /-- The inputs presented, next one first (R231). -/
  inputs : List Input
  /-- The bus (R42, R44). -/
  bus : Bus
  /-- The responses given, oldest first (R231). -/
  responses : List Response
  deriving DecidableEq, Repr

/-- Why the machine has no further step. -/
inductive Fault where
  /-- Raised by `step` alone, never by an instruction's meaning: a bus request was never answered, so the command in progress
  has no further step, and no `rst` comes (R46, R232 (c), (d)). SAFE: the hardware makes no step here either. -/
  | busHang
  deriving DecidableEq, Repr

/-- Why an instruction is refused. -/
inductive Refusal where
  /-- For an arm of `exec` without a meaning: no arm is one, so nothing raises it. SAFE: the machine stops. -/
  | notModelled (mnemonic : String)
  deriving DecidableEq, Repr

/-- The machine right after reset: UNCONSTRUCTED, no other register holds a value, no command in progress, no bus request
outstanding, no response (R28, R210); nothing presented and nothing lined up (log entries 1 to 3). -/
def State.reset : State :=
  { block := .unconstructed, waiting := none, inputs := [], bus := { lined := [], requests := [] }, responses := [] }

end Sys2Proof.Machine
end

