-- ==== Sys2Proof/Machine/Operands.lean ====
section
/-! DEFINITION. The operand forms: the bytes of a raw word, the count extractor and the status decoder (42_decode.md), and
the bus port's answer as a byte sequence (20_memory.md rules R42, R43). -/

namespace Sys2Proof.Machine

/-- byte0 = raw[31:24] (R61). -/
def byte0 (raw : RawWord) : Byte := raw.extractLsb' 24 8

/-- byte1 = raw[23:16] (R61). -/
def byte1 (raw : RawWord) : Byte := raw.extractLsb' 16 8

/-- byte2 = raw[15:8] (R61), never interpreted (R64). -/
def byte2 (raw : RawWord) : Byte := raw.extractLsb' 8 8

/-- byte3 = raw[7:0] (R61), never interpreted (R64). -/
def byte3 (raw : RawWord) : Byte := raw.extractLsb' 0 8

/-- The 32-bit word {byte0, byte1, byte2, byte3} (R61). -/
def packRaw (b0 b1 b2 b3 : Byte) : RawWord := b0 ++ b1 ++ b2 ++ b3

/-- `DecodeCounts(raw)`: mask, 14-bit shift, OR, on unsigned bytes (R120). -/
def countsOf (raw : RawWord) : Counts :=
  let masked := byte0 raw &&& 0x3F#8
  let shifted := masked.setWidth 14 <<< 8
  shifted ||| (byte1 raw).setWidth 14

/-- `DecodeStatus(raw)`: mask and logical shift of an unsigned byte (R122). -/
def statusOf (raw : RawWord) : StatusCode :=
  ((byte0 raw &&& 0xC0#8) >>> 6).setWidth 2

/-- The answer of a block read: `BusFail(cause)`, or `BusOk(k, bytes)` with `k` the length of the list (R42). -/
inductive BusAnswer where
  | fail (cause : Info)
  | ok (bytes : List Byte)
  deriving DecidableEq, Repr

/-- What the answer lines mean: `err` makes it a failure; else `min(count, 4)` byte lanes count and the rest are ignored (R42). -/
def busAnswer (rsp : BusRsp) : BusAnswer :=
  if rsp.err then .fail rsp.cause
  else .ok ([byte0 rsp.data, byte1 rsp.data, byte2 rsp.data, byte3 rsp.data].take (min rsp.count.toNat 4))

/-- The raw reading of an answer's bytes: none where there are fewer than four; bytes beyond the fourth are cut (R42, R45). -/
def rawOfBytes : List Byte → Option RawWord
  | b0 :: b1 :: b2 :: b3 :: _ => some (packRaw b0 b1 b2 b3)
  | _ => none

/-- The registers right after CONSTRUCT (R28, third column; R93). -/
def freshRegs (addr : BusAddr) (maxp : RatedPressure) : Regs :=
  { busAddr := addr, maxPressure := maxp, outputMin := Config.outputMinDefault, calibrated := false,
    outputCounts := none, pressure := none, status := none }

end Sys2Proof.Machine
end

