-- ==== Sys2Proof/Machine/Flags.lean ====
section
/-! DEFINITION. The flag-like outputs, all functions of the state (10_state.md rules R22 to R24): `span`, `degen`, `bus_claim`,
`cmd_ready`, and the observation ports. The block has no condition codes (R22). -/

namespace Sys2Proof.Machine

/-- `span = OUTPUT_MAX - output_min`, exact (R23, R132). -/
def spanOf (omin : Counts) : Int := (Config.outputMax : Int) - omin.toNat

/-- `degen`: an instance exists and `output_min >= OUTPUT_MAX` (R23); sampled after a command it is `warn` (R80). -/
def degen : Block → Bool
  | .unconstructed => false
  | .constructed g => decide (Config.outputMax ≤ g.outputMin.toNat)

/-- `life` as a bit (R13). -/
def life : Block → Bool
  | .unconstructed => false
  | .constructed _ => true

/-- Whether a command is CONSTRUCT: it waits for the bus only past its configuration check (R93). -/
def isConstruct : Instr → Bool
  | .construct _ _ _ => true
  | _ => false

/-- `bus_claim`: an instance exists, or a CONSTRUCT is in progress past its configuration check (R23). -/
def busClaim (s : State) : Bool := life s.block || s.waiting.any isConstruct

/-- `cmd_ready`: no command is in progress (R84). -/
def cmdReady (s : State) : Bool := s.waiting.isNone

/-- The observation ports `q_<name>` (R24). A port that carries an unspecified value is `none` here (R24, R212, V1, V9). -/
structure Ports where
  qLife : Bool
  qBusAddr : Option BusAddr
  qMaxPressure : Option RatedPressure
  qOutputMin : Option Counts
  qCalibrated : Option Bool
  qCountsValid : Option Bool
  qOutputCounts : Option Counts
  qPressureValid : Option Bool
  qPressure : Option Pressure
  qStatusValid : Option Bool
  qStatus : Option StatusCode
  qSpan : Option (BitVec 16)
  qDegen : Bool
  qBusClaim : Bool
  deriving DecidableEq, Repr

/-- The registers, where an instance exists. -/
def regsOf : Block → Option Regs
  | .unconstructed => none
  | .constructed g => some g

/-- The ports as functions of the state; a command changes them only at its end (R24). -/
def ports (s : State) : Ports :=
  let r := regsOf s.block
  { qLife := life s.block
    qBusAddr := r.map (·.busAddr)
    qMaxPressure := r.map (·.maxPressure)
    qOutputMin := r.map (·.outputMin)
    qCalibrated := r.map (·.calibrated)
    qCountsValid := r.map (·.outputCounts.isSome)
    qOutputCounts := r.bind (·.outputCounts)
    qPressureValid := r.map (·.pressure.isSome)
    qPressure := r.bind (·.pressure)
    qStatusValid := r.map (·.status.isSome)
    qStatus := r.bind (·.status)
    qSpan := r.map (fun g => BitVec.ofInt 16 (spanOf g.outputMin))
    qDegen := degen s.block
    qBusClaim := busClaim s }

end Sys2Proof.Machine
end

