-- ==== Sys2Proof/Machine/Ops.lean ====
section
/-! DEFINITION. The named operations: register writes, the bus read and FetchRaw (20_memory.md, 41_bus_fetch.md), the response
and its word (30_encoding.md section 6), entering a failure (60_exceptions.md rule R191), ending a command, and reset. -/

namespace Sys2Proof.Machine

/-- `S.output_counts <- some(c)` (R140). -/
def Regs.setCounts (g : Regs) (c : Counts) : Regs := { g with outputCounts := some c }

/-- `S.pressure <- some(p)` (R140). -/
def Regs.setPressure (g : Regs) (p : Pressure) : Regs := { g with pressure := some p }

/-- `S.status <- some(x)` (R145). -/
def Regs.setStatus (g : Regs) (x : StatusCode) : Regs := { g with status := some x }

/-- `S.output_min <- m ; S.calibrated <- 1` (R161). -/
def Regs.setZero (g : Regs) (m : Counts) : Regs := { g with outputMin := m, calibrated := true }

/-- What a sub-operation works on: the registers of the instance, which exists, and the bus. -/
structure Work where
  regs : Regs
  bus : Bus
  deriving DecidableEq, Repr

/-- How a sub-operation ends: with a value; with a `raise`, the writes before it made (R7, R191); or not at all, because its
bus request has no answer (R46). -/
inductive Res (α : Type) where
  | ok (v : α) (w : Work)
  | raise (f : Failure) (w : Work)
  | hang (w : Work)
  deriving DecidableEq, Repr

/-- A sub-operation run inline: a `raise` inside ends the enclosing one too (R7, R193). -/
def Res.bind {α β : Type} (r : Res α) (k : α → Work → Res β) : Res β :=
  match r with
  | .ok v w => k v w
  | .raise f w => .raise f w
  | .hang w => .hang w

/-- The draw the next bus request meets (R44): the first one lined up, else the free value. -/
def nextDraw (b : Bus) : BusDraw :=
  match b.lined with
  | d :: _ => d
  | [] => Config.busDraw b.requests.length

/-- The bus after a request: its draw is used up and the request is recorded (R44, R231). -/
def Bus.afterRequest (b : Bus) (q : BusRequest) : Bus :=
  { lined := b.lined.tail, requests := b.requests ++ [q] }

/-- `BusRead(addr, reg, n)`: exactly one request, one draw, never a second one (R42, R44, R194). -/
def busRead (addr : BusAddr) (reg : BitVec 8) (len : BitVec 3) (w : Work) : Res BusAnswer :=
  let w' := { w with bus := w.bus.afterRequest { addr := addr, reg := reg, len := len } }
  match nextDraw w.bus with
  | .answer rsp => .ok (busAnswer rsp) w'
  | .never => .hang w'

/-- `FetchRaw()` (R111): the one place that reads the bus (R45). -/
def fetchRaw (w : Work) : Res RawWord :=
  (busRead w.regs.busAddr Config.busReg Config.busLen w).bind fun a w' =>
    match a with
    | .fail cause => .raise (.busError cause) w'
    | .ok bytes =>
      match rawOfBytes bytes with
      | some raw => .ok raw w'
      | none => .raise (.shortRead (BitVec.ofNat 2 bytes.length)) w'

/-- The raw reading a command decodes: its operand, or a fresh one from the bus (R140, R145). -/
def rawOrFetch (r : Option RawWord) (w : Work) : Res RawWord :=
  match r with
  | some raw => .ok raw w
  | none => fetchRaw w

/-- The result codes 1 to 7 (R81). -/
def Failure.code : Failure → BitVec 3
  | .invalidConfiguration => 1#3
  | .busError _ => 2#3
  | .shortRead _ => 3#3
  | .degenerateCalibration => 4#3
  | .notConstructed => 5#3
  | .alreadyConstructed => 6#3
  | .illegalCommand => 7#3

/-- The failure information (R83). -/
def Failure.info : Failure → Info
  | .busError cause => cause
  | .shortRead count => count
  | _ => 0#2

/-- The result code of a response, 0 for OK (R81). -/
def Response.code (r : Response) : BitVec 3 :=
  match r.result with
  | .ok _ => 0#3
  | .fail f => f.code

/-- The info field of a response (R83). -/
def Response.info (r : Response) : Info :=
  match r.result with
  | .ok _ => 0#2
  | .fail f => f.info

/-- The value field of a response, 0 on every failure (R80, R82). -/
def Response.value (r : Response) : Value :=
  match r.result with
  | .ok v => v
  | .fail _ => 0#48

/-- The 57-bit response word: rsp_op 56:54, code 53:51, warn 50, info 49:48, value 47:0 (R80). -/
def Response.word (r : Response) : RspWord :=
  r.op ++ r.code ++ BitVec.ofBool r.warn ++ r.info ++ r.value

/-- The response of a command is presented: `warn` is `degen` in the state after the command (R80, R185). -/
def respond (op : OpBits) (r : Result) (s : State) : State :=
  { s with responses := s.responses ++ [{ op := op, warn := degen s.block, result := r }] }

/-- TAKING A FAILURE, the one shared entry (R191): the response carries the kind, nothing is saved, no mode changes, control
goes nowhere; the block is ready for the next command. There is no return from it (R193). -/
def failWith (op : OpBits) (f : Failure) (s : State) : State := respond op (.fail f) s

/-- The state with the instance and the bus a sub-operation left. -/
def State.setWork (s : State) (w : Work) : State := { s with block := .constructed w.regs, bus := w.bus }

/-- A command whose bus request has no answer: it stays in progress, the ports still show the state before it (R24, R46).
DEDUCED, safe (log entry 4). -/
def State.hangIn (s : State) (i : Instr) (b : Bus) : State := { s with bus := b, waiting := some i }

/-- The end of a command on an instance (R80, R191, R46): its sub-operation's writes stand, and the response is presented. -/
def finish (i : Instr) (s : State) (r : Res Value) : State :=
  match r with
  | .ok v w => respond (opcode i) (.ok v) (s.setWork w)
  | .raise f w => failWith (opcode i) f (s.setWork w)
  | .hang w => s.hangIn i w.bus

/-- A command that needs an instance: NotConstructed without one (R186), before anything else (R190 step 2). -/
def onConstructed (i : Instr) (body : Work → Res Value) (s : State) : State :=
  match s.block with
  | .unconstructed => failWith (opcode i) .notConstructed s
  | .constructed g => finish i s (body { regs := g, bus := s.bus })

/-- An illegal command word: IllegalCommand with the word's own bits 43:41, nothing else (R74, R188). -/
def illegalCommand (w : CmdWord) (s : State) : State := failWith (opBits w) .illegalCommand s

/-- Reset: UNCONSTRUCTED, a command in progress abandoned without a response (R210, R213).
DESIGN CHOICE on a command that is not waiting (log entry 8). -/
def resetBlock (s : State) : State := { s with block := .unconstructed, waiting := none }

end Sys2Proof.Machine
end

