-- ==== Sys2Proof/Machine/Transfer.lean ====
section
/-! DEFINITION. The transfer-function engine (43_transfer.md section 1): exact integers, one division truncated toward zero.
DESIGN CHOICE: the engine of R133, not the field R139 allows in its place (log entry 13). -/

namespace Sys2Proof.Machine

/-- `tdiv(n, d) = sign(n) * sign(d) * floor(|n| / |d|)` (R6). -/
def tdiv (n d : Int) : Int := n.sign * d.sign * ((n.natAbs / d.natAbs : Nat) : Int)

/-- The subtractor: `diff = c - omin`, exact and signed (R131). -/
def diffOf (c omin : Counts) : Int := (c.toNat : Int) - omin.toNat

/-- The quotient of the engine before it is cut to a word: `tdiv(diff * mpraw * 2^P_F, span * 2^MP_F)` (R133). -/
def quotient (c omin : Counts) (mpraw : Int) : Int :=
  tdiv (diffOf c omin * mpraw * 2 ^ Config.pFrac) (spanOf omin * 2 ^ Config.mpFrac)

/-- `Transfer(c, omin, mpraw)` (R133): no value where `span = 0`, which raises DegenerateCalibration (R134). -/
def transfer (c omin : Counts) (mpraw : Int) : Option Pressure :=
  if spanOf omin = 0 then none else some (BitVec.ofInt 48 (quotient c omin mpraw))

end Sys2Proof.Machine
end

