-- ==== Sys2Proof/Machine/Pressure.lean ====
section
/-! DEFINITION. GET_PRESSURE, both forms (43_transfer.md section 2). -/

namespace Sys2Proof.Machine

/-- The tail of `GetPressure` once a raw reading is at hand (R140): counts stored, pressure computed, pressure stored. It
answers the counts it stored beside the pressure, for `Calibrate`. -/
def storeReading (raw : RawWord) (w : Work) : Res (Counts × Pressure) :=
  let c := countsOf raw
  let g := w.regs.setCounts c
  match transfer c g.outputMin g.maxPressure.toInt with
  | none => .raise .degenerateCalibration { w with regs := g }
  | some p => .ok (c, p) { w with regs := g.setPressure p }

/-- `GetPressure(r)` with the counts it stored (R140). -/
def takeReading (r : Option RawWord) (w : Work) : Res (Counts × Pressure) :=
  (rawOrFetch r w).bind storeReading

/-- `GetPressure(r)` (R140). -/
def getPressure (r : Option RawWord) (w : Work) : Res Pressure :=
  (takeReading r w).bind fun cp w' => .ok cp.2 w'

/-- GET_PRESSURE.R raw (R141). -/
def execGetPressureR (raw : RawWord) (s : State) : Host.Outcome State Fault Refusal :=
  .next (onConstructed (.getPressureR raw) (getPressure (some raw)) s)

/-- GET_PRESSURE.B (R142). -/
def execGetPressureB (s : State) : Host.Outcome State Fault Refusal :=
  .next (onConstructed .getPressureB (getPressure none) s)

end Sys2Proof.Machine
end

