-- ==== Sys2Proof/Machine/Calibrate.lean ====
section
/-! DEFINITION. CALIBRATE (44_calibrate.md). -/

namespace Sys2Proof.Machine

/-- The current `output_counts` as `Calibrate` takes it (R161, R162): the cached value where there is one, however old, and
else the one a `GetPressure` with a bus read stores. -/
def currentCounts (w : Work) : Res Counts :=
  match w.regs.outputCounts with
  | some c => .ok c w
  | none => (takeReading none w).bind fun cp w' => .ok cp.1 w'

/-- `Calibrate()`: the current counts become the zero (R161). -/
def calibrate (w : Work) : Res Counts :=
  (currentCounts w).bind fun c w' => .ok c { w' with regs := w'.regs.setZero c }

/-- CALIBRATE (R161): its value is the new `output_min` (R82). -/
def execCalibrate (s : State) : Host.Outcome State Fault Refusal :=
  .next (onConstructed .calibrate (fun w => (calibrate w).bind fun m w' => .ok (m.setWidth 48) w') s)

end Sys2Proof.Machine
end

