-- ==== Sys2Proof/Machine/Decoders.lean ====
section
/-! DEFINITION. DECODE_COUNTS and DECODE_STATUS (42_decode.md): pure, answered in both lifecycle states (R124). -/

namespace Sys2Proof.Machine

/-- DECODE_COUNTS raw (R121). -/
def execDecodeCounts (raw : RawWord) (s : State) : Host.Outcome State Fault Refusal :=
  .next (respond (opcode (.decodeCounts raw)) (.ok ((countsOf raw).setWidth 48)) s)

/-- DECODE_STATUS raw (R123). -/
def execDecodeStatus (raw : RawWord) (s : State) : Host.Outcome State Fault Refusal :=
  .next (respond (opcode (.decodeStatus raw)) (.ok ((statusOf raw).setWidth 48)) s)

end Sys2Proof.Machine
end

