-- ==== Sys2Proof/Machine/Fetch.lean ====
section
/-! DEFINITION. FETCH_RAW (41_bus_fetch.md). -/

namespace Sys2Proof.Machine

/-- FETCH_RAW: one bus read, its raw word as the value; no register is written (R112). -/
def execFetchRaw (s : State) : Host.Outcome State Fault Refusal :=
  .next (onConstructed .fetchRaw (fun w => (fetchRaw w).bind fun raw w' => .ok (raw.setWidth 48) w') s)

end Sys2Proof.Machine
end

