-- ==== Sys2Proof/Machine/Lifecycle.lean ====
section
/-! DEFINITION. CONSTRUCT and DISCARD (40_lifecycle.md). -/

namespace Sys2Proof.Machine

/-- The state with no instance and the bus a failed construction left (R94). -/
def State.dropInstance (s : State) (b : Bus) : State := { s with block := .unconstructed, bus := b }

/-- The end of a construction with auto-calibration (R93): a failure in it drops the half-built instance first (R94). -/
def finishConstruct (i : Instr) (s : State) (r : Res Counts) : State :=
  match r with
  | .ok _ w => respond (opcode i) (.ok 0#48) (s.setWork w)
  | .raise f w => failWith (opcode i) f (s.dropInstance w.bus)
  | .hang w => s.hangIn i w.bus

/-- CONSTRUCT past its checks: the construction values, then one `Calibrate` if asked (R93). -/
def construct (i : Instr) (addr : BusAddr) (maxp : RatedPressure) (autocal : Bool) (s : State) : State :=
  let w : Work := { regs := freshRegs addr maxp, bus := s.bus }
  if autocal then finishConstruct i s (calibrate w)
  else respond (opcode i) (.ok 0#48) (s.setWork w)

/-- CONSTRUCT addr, maxp, autocal (R93): the lifecycle check (R95), the configuration check (R92), the construction. -/
def execConstruct (addr : BusAddr) (maxp : RatedPressure) (autocal : Bool) (s : State) :
    Host.Outcome State Fault Refusal :=
  let i : Instr := .construct addr maxp autocal
  match s.block with
  | .constructed _ => .next (failWith (opcode i) .alreadyConstructed s)
  | .unconstructed =>
    if maxp.toInt ≤ 0 then .next (failWith (opcode i) .invalidConfiguration s)
    else .next (construct i addr maxp autocal s)

/-- DISCARD: UNCONSTRUCTED in every state, no bus access, Ok(0) (R96). -/
def execDiscard (s : State) : Host.Outcome State Fault Refusal :=
  .next (respond (opcode .discard) (.ok 0#48) { s with block := .unconstructed })

end Sys2Proof.Machine
end

