-- ==== Sys2Proof/Machine/Status.lean ====
section
/-! DEFINITION. GET_STATUS, both forms (43_transfer.md section 3). -/

namespace Sys2Proof.Machine

/-- The tail of `GetStatus`: the status decoded and stored (R145). -/
def storeStatus (raw : RawWord) (w : Work) : Res StatusCode :=
  .ok (statusOf raw) { w with regs := w.regs.setStatus (statusOf raw) }

/-- `GetStatus(r)` (R145). -/
def getStatus (r : Option RawWord) (w : Work) : Res StatusCode :=
  (rawOrFetch r w).bind storeStatus

/-- The value of a GET_STATUS command, `zext_48(s)` (R82). -/
def statusValue (r : Option RawWord) (w : Work) : Res Value :=
  (getStatus r w).bind fun x w' => .ok (x.setWidth 48) w'

/-- GET_STATUS.R raw (R146). -/
def execGetStatusR (raw : RawWord) (s : State) : Host.Outcome State Fault Refusal :=
  .next (onConstructed (.getStatusR raw) (statusValue (some raw)) s)

/-- GET_STATUS.B (R147). -/
def execGetStatusB (s : State) : Host.Outcome State Fault Refusal :=
  .next (onConstructed .getStatusB (statusValue none) s)

end Sys2Proof.Machine
end

