-- ==== Sys2Proof/Machine/Dispatch.lean ====
section
/-! DEFINITION. The dispatch: one arm per instruction. -/

namespace Sys2Proof.Machine

/-- One command, executed whole (00_scope.md R4). -/
def exec (i : Instr) (s : State) : Host.Outcome State Fault Refusal :=
  match i with
  | .construct addr maxp autocal => Sys2Proof.Machine.execConstruct addr maxp autocal s
  | .fetchRaw => Sys2Proof.Machine.execFetchRaw s
  | .decodeCounts raw => Sys2Proof.Machine.execDecodeCounts raw s
  | .decodeStatus raw => Sys2Proof.Machine.execDecodeStatus raw s
  | .getPressureR raw => Sys2Proof.Machine.execGetPressureR raw s
  | .getPressureB => Sys2Proof.Machine.execGetPressureB s
  | .getStatusR raw => Sys2Proof.Machine.execGetStatusR raw s
  | .getStatusB => Sys2Proof.Machine.execGetStatusB s
  | .calibrate => Sys2Proof.Machine.execCalibrate s
  | .discard => Sys2Proof.Machine.execDiscard s

end Sys2Proof.Machine
end

