-- ==== Sys2Proof/Machine/Step.lean ====
section
/-! DEFINITION. One step of the machine: the next input is taken (70_reset_and_hazards.md rule R231). -/

namespace Sys2Proof.Machine

/-- A command word is accepted: decoded, then executed, or answered IllegalCommand before any other test (R74, R190). -/
def accept (w : CmdWord) (s : State) : Host.Outcome State Fault Refusal :=
  match decode w with
  | .instr i => exec i s
  | .illegal _ => .next (illegalCommand w s)

/-- One step. `rst` is taken idle or waiting (R210, R213). A command word is taken when `cmd_ready` is 1 (R84). With nothing
presented an idle block holds its state (R203, R231). A waiting block has no step but `rst` (R46, R232 (c), (d)).
DEDUCED, safe (log entries 4 and 5). -/
def step (s : State) : Host.Outcome State Fault Refusal :=
  match s.inputs with
  | .reset :: rest => .next (resetBlock { s with inputs := rest })
  | .command w :: rest => if cmdReady s then accept w { s with inputs := rest } else .fault .busHang
  | [] => if cmdReady s then .next s else .fault .busHang

/-- The state with a command word presented as the next input (R84, log entry 1): there is no memory to fetch from, so this is
where `step` finds its next instruction. -/
def State.withFetchWord (s : State) (_nbits w : Nat) : State :=
  { s with inputs := .command (BitVec.ofNat 44 w) :: s.inputs }

end Sys2Proof.Machine
end

