-- ==== Sys2Proof/Machine/Program.lean ====
section
/-! DEFINITION. A caller's programs: the pseudo-command READ_BOTH (30_encoding.md rule R75) and the start of a run
(70_reset_and_hazards.md rule R231).
DESIGN CHOICE, safe: READ_BOTH is the caller's procedure (log entry 9). -/

namespace Sys2Proof.Machine

/-- The last two commands of READ_BOTH, on the raw word the FETCH_RAW returned (R75, R223). -/
def readBothOf (raw : RawWord) (s : State) : Host.Outcome State Fault Refusal :=
  match exec (.getPressureR raw) s with
  | .next t => exec (.getStatusR raw) t
  | .fault f => .fault f
  | .refused r => .refused r

/-- READ_BOTH: FETCH_RAW, then GET_PRESSURE and GET_STATUS of the word it returned; only FETCH_RAW where that fails or is
never answered (R75). -/
def readBoth (s : State) : Host.Outcome State Fault Refusal :=
  match exec .fetchRaw s with
  | .next t =>
    if cmdReady t then
      match t.responses.getLast? with
      | some { result := .ok v, .. } => readBothOf (v.setWidth 32) t
      | _ => .next t
    else .next t
  | .fault f => .fault f
  | .refused r => .refused r

/-- The start of a run: the state after reset, a sequence of command words presented, and the draws its bus reads meet (R231). -/
def State.startOf (cmds : List CmdWord) (draws : List BusDraw) : State :=
  { State.reset with inputs := cmds.map Input.command, bus := { lined := draws, requests := [] } }

end Sys2Proof.Machine
end

