-- ==== Sys2Proof/Safety.lean ====
section
/-! DEFINITION. What a good state is, in the terms statements use: the invariants of 10_state.md rule R25, and of a command in
progress. -/

namespace Sys2Proof.Machine

/-- The bus after one block read at an address: one request (addr, register 0, length 4), one draw used up (R42). -/
def Bus.afterRead (b : Bus) (addr : BusAddr) : Bus :=
  { lined := b.lined.tail, requests := b.requests ++ [{ addr := addr, reg := 0#8, len := 4#3 }] }

/-- Where a command reads the bus: the address it asks, or none where it performs no bus read (R113). -/
def busReadOf (i : Instr) (b : Block) : Option BusAddr :=
  match b, i with
  | .unconstructed, .construct addr maxp autocal => if 0 < maxp.toInt ∧ autocal = true then some addr else none
  | .constructed g, .fetchRaw => some g.busAddr
  | .constructed g, .getPressureB => some g.busAddr
  | .constructed g, .getStatusB => some g.busAddr
  | .constructed g, .calibrate => if g.outputCounts = none then some g.busAddr else none
  | _, _ => none

/-- A command has been answered: its response stands last (R80). -/
def State.answered (s : State) (op : OpBits) (warn : Bool) (r : Result) : State :=
  { s with responses := s.responses ++ [{ op := op, warn := warn, result := r }] }

/-- The block is an instance with these registers. -/
def State.withRegs (s : State) (g : Regs) : State := { s with block := .constructed g }

/-- The block has performed one bus read at an address. -/
def State.withRead (s : State) (addr : BusAddr) : State := { s with bus := s.bus.afterRead addr }

/-- The warning level of a zero: `output_min >= 14745` (R80). -/
def flagged (omin : Counts) : Bool := decide (14745 ≤ omin.toNat)

/-- The transfer function with the default parameters, as R133 reduces it: `tdiv(diff * mpraw, span)` in 48 bits. -/
def pressureOf (c omin : Counts) (mp : RatedPressure) : Pressure :=
  BitVec.ofInt 48 (Int.tdiv (((c.toNat : Int) - omin.toNat) * mp.toInt) (14745 - omin.toNat))

/-- The next bus read is answered with a whole reading, this word (R42, R45). -/
def readsWord (b : Bus) (raw : RawWord) : Prop :=
  ∃ rsp, nextDraw b = .answer rsp ∧ rsp.err = false ∧ 4 ≤ rsp.count.toNat ∧ rsp.data = raw

/-- The next bus read fails this way: BusError with the port's cause, or ShortRead with the number of bytes (R45). -/
def readFails (b : Bus) (f : Failure) : Prop :=
  ∃ rsp, nextDraw b = .answer rsp
    ∧ ((rsp.err = true ∧ f = .busError rsp.cause)
      ∨ (rsp.err = false ∧ rsp.count.toNat < 4 ∧ f = .shortRead (BitVec.ofNat 2 rsp.count.toNat)))

/-- (I-a) to (I-e) of R25, of the registers of an instance. -/
def Regs.Inv (g : Regs) : Prop :=
  0 < g.maxPressure.toInt
    ∧ (g.calibrated = true → g.outputCounts.isSome = true)
    ∧ (g.calibrated = false → g.outputMin = 1638#14)
    ∧ (g.outputCounts.isSome = false → g.outputMin = 1638#14 ∧ g.calibrated = false ∧ g.pressure.isSome = false)
    ∧ (g.pressure.isSome = true → g.outputCounts.isSome = true)

/-- R25 holds of the block. -/
def Block.Inv : Block → Prop
  | .unconstructed => True
  | .constructed g => g.Inv

/-- A command in progress is one that waits for the bus (R113): on an instance, or a CONSTRUCT past its configuration check
where none is shown yet; a CALIBRATE only where no counts were computed. -/
def waitingInv (b : Block) : Instr → Prop
  | .construct _ maxp autocal => b = .unconstructed ∧ 0 < maxp.toInt ∧ autocal = true
  | .fetchRaw => life b = true
  | .getPressureB => life b = true
  | .getStatusB => life b = true
  | .calibrate => life b = true ∧ (regsOf b).bind (·.outputCounts) = none
  | .decodeCounts _ => False
  | .decodeStatus _ => False
  | .getPressureR _ => False
  | .getStatusR _ => False
  | .discard => False

/-- Every bus request ever issued is for register 0, length 4 (R40, R49). -/
def requestsInv (rs : List BusRequest) : Prop := ∀ q ∈ rs, q.reg = 0#8 ∧ q.len = 4#3

/-- The invariant of the machine. -/
def State.Inv (s : State) : Prop :=
  s.block.Inv ∧ (∀ i ∈ s.waiting, waitingInv s.block i) ∧ requestsInv s.bus.requests

end Sys2Proof.Machine
end

