-- ==== Sys2Proof/Certificates/Slice0/Obligations.lean ====
section
/-! DEFINITION. The statements for the provers, from the numbered rules of spec/. Next states are written out, so each one is
also the frame of its instruction: whatever the right side does not name is unchanged. -/

open Sys2Proof Sys2Proof.Machine

/-! ## Encoding -/

/-- R72, R73: decoding an instruction's word gives the instruction back, every operand at every value. -/
def Obligations.DecodeInvertsEncode : Prop :=
  ∀ i : Instr, i.wellFormed = true → decode (encode i) = .instr i

/-- R72: where a word decodes to an instruction, it is that instruction's one word. -/
def Obligations.EncodeInvertsDecode : Prop :=
  ∀ (w : CmdWord) (i : Instr), decode w = .instr i → encode i = w

/-- R74, R188: the words with no instruction are exactly the listed ones; such a word is answered IllegalCommand with its own
bits 43:41, and nothing else changes, whatever the block's state; opcode 0 is always legal, a raw operand never illegal. -/
def Obligations.IllegalWordsAreTheListedOnes : Prop :=
  (∀ w : CmdWord, (∃ why, decode w = .illegal why) ↔ w.illegal = true)
    ∧ (∀ (s : State) (w : CmdWord) (rest : List Input), s.waiting = none → s.inputs = .command w :: rest →
        w.illegal = true →
        step s = .next ({ s with inputs := rest }.answered (w.extractLsb' 41 3) (degen s.block) (.fail .illegalCommand)))
    ∧ (∀ w : CmdWord, w.extractLsb' 41 3 = 0#3 → w.illegal = false)
    ∧ (∀ raw : RawWord, CmdWord.illegal (0x50000000000#44 ||| raw.setWidth 44) = false
        ∧ CmdWord.illegal (0x70000000000#44 ||| raw.setWidth 44) = false
        ∧ CmdWord.illegal (0x90000000000#44 ||| raw.setWidth 44) = false
        ∧ CmdWord.illegal (0xB0000000000#44 ||| raw.setWidth 44) = false)

/-- R72: a word decodes to an instruction of a row exactly where that row's mask and match select it, and no word is selected
by two rows. -/
def Obligations.RowsSelectWordsDisjointly : Prop :=
  (∀ (w : CmdWord) (i : Instr), decode w = .instr i → w &&& rowMask i = rowMatch i)
    ∧ (∀ (w : CmdWord) (i : Instr), w &&& rowMask i = rowMatch i →
        ∃ j, decode w = .instr j ∧ rowMask j = rowMask i ∧ rowMatch j = rowMatch i)
    ∧ (∀ (w : CmdWord) (i j : Instr), w &&& rowMask i = rowMatch i → w &&& rowMask j = rowMatch j →
        rowMatch i = rowMatch j)

/-- R72: words written out from the rows of the table, one of each row. -/
def Obligations.WrittenWordsDecode : Prop :=
  decode 0x12800640000#44 = .instr (.construct 0x28#8 0x00640000#32 true)
    ∧ decode 0x20000000000#44 = .instr .fetchRaw
    ∧ decode 0x50019990000#44 = .instr (.decodeCounts 0x19990000#32)
    ∧ decode 0x70040000000#44 = .instr (.decodeStatus 0x40000000#32)
    ∧ decode 0x90019990000#44 = .instr (.getPressureR 0x19990000#32)
    ∧ decode 0x80000000000#44 = .instr .getPressureB
    ∧ decode 0xB0040000000#44 = .instr (.getStatusR 0x40000000#32)
    ∧ decode 0xA0000000000#44 = .instr .getStatusB
    ∧ decode 0xC0000000000#44 = .instr .calibrate
    ∧ decode 0xE0000000000#44 = .instr .discard

/-- R80 to R83: the fields of a response word. -/
def Obligations.ResponseWordHoldsItsFields : Prop :=
  ∀ r : Response,
    r.word.extractLsb' 54 3 = r.op
      ∧ r.word.extractLsb' 51 3 = (match r.result with
          | .ok _ => 0#3
          | .fail .invalidConfiguration => 1#3
          | .fail (.busError _) => 2#3
          | .fail (.shortRead _) => 3#3
          | .fail .degenerateCalibration => 4#3
          | .fail .notConstructed => 5#3
          | .fail .alreadyConstructed => 6#3
          | .fail .illegalCommand => 7#3)
      ∧ r.word.getLsbD 50 = r.warn
      ∧ r.word.extractLsb' 48 2 = (match r.result with
          | .fail (.busError cause) => cause
          | .fail (.shortRead count) => count
          | _ => 0#2)
      ∧ r.word.extractLsb' 0 48 = (match r.result with
          | .ok v => v
          | .fail _ => 0#48)

/-- R61, R75, of written lines as terms (log entry 9): a line stands for a command exactly where its checks hold, READ_BOTH
for none of its own. CONSTRUCT stands for the command with its address, its flag and the `maxp` that is its decimal times
65536; a line with four raw bytes for its own command with the word packed of them; a line without operand for its own command,
GET_PRESSURE and GET_STATUS for their bus forms. -/
def Obligations.LinesAssembleWhereWellFormed : Prop :=
  (∀ l : Line, (assemble l).isSome = (l.wellFormed && decide (l ≠ .readBoth)))
    ∧ (∀ (addr : BusAddr) (d : Decimal) (maxp : RatedPressure) (autocal : Bool),
        maxp.toInt * (10 ^ d.places : Nat) = d.mantissa * 65536 →
          assemble (.construct addr.toNat d autocal) = some (.construct addr maxp autocal))
    ∧ (∀ b0 b1 b2 b3 : Byte,
        assemble (.decodeCounts [b0.toNat, b1.toNat, b2.toNat, b3.toNat]) = some (.decodeCounts (packRaw b0 b1 b2 b3))
          ∧ assemble (.decodeStatus [b0.toNat, b1.toNat, b2.toNat, b3.toNat]) = some (.decodeStatus (packRaw b0 b1 b2 b3))
          ∧ assemble (.getPressure (some [b0.toNat, b1.toNat, b2.toNat, b3.toNat]))
              = some (.getPressureR (packRaw b0 b1 b2 b3))
          ∧ assemble (.getStatus (some [b0.toNat, b1.toNat, b2.toNat, b3.toNat]))
              = some (.getStatusR (packRaw b0 b1 b2 b3)))
    ∧ assemble .fetchRaw = some .fetchRaw
    ∧ assemble (.getPressure none) = some .getPressureB
    ∧ assemble (.getStatus none) = some .getStatusB
    ∧ assemble .calibrate = some .calibrate
    ∧ assemble .discard = some .discard

/-! ## The step, reset, the wait for the bus -/

/-- R70, R190: a presented word that decodes is executed, and the step adds nothing but taking it from the inputs. -/
def Obligations.StepRunsTheDecodedInstruction : Prop :=
  ∀ (s : State) (w : CmdWord) (rest : List Input) (i : Instr),
    s.waiting = none → s.inputs = .command w :: rest → decode w = .instr i →
      step s = exec i { s with inputs := rest }

/-- R210, R213: `rst`, idle or while a command waits, leaves UNCONSTRUCTED and ready, gives no response, and has the effect of
DISCARD on the block; the state after power-on reset is such a state. -/
def Obligations.ResetLeavesUnconstructed : Prop :=
  (∀ (s : State) (rest : List Input), s.inputs = .reset :: rest →
      ∃ t u, step s = .next t ∧ exec .discard s = .next u ∧ t.block = .unconstructed ∧ t.block = u.block
        ∧ t.waiting = none ∧ cmdReady t = true ∧ degen t.block = false ∧ busClaim t = false
        ∧ t.inputs = rest ∧ t.bus = s.bus ∧ t.responses = s.responses)
    ∧ State.reset.block = .unconstructed ∧ cmdReady State.reset = true ∧ degen State.reset.block = false
    ∧ busClaim State.reset = false ∧ State.reset.responses = [] ∧ State.reset.bus.requests = []

/-- R203, R231: with no input an idle block holds its state; that this counts as a step is the model's choice (log entry 1). -/
def Obligations.IdleBlockHoldsItsState : Prop :=
  ∀ s : State, s.waiting = none → s.inputs = [] → step s = .next s

/-- R46, R23, R84: a command that reads the bus and gets no answer stays in progress: no response, the registers and ports as
before it (log entry 4, DEDUCED, for the registers a CONSTRUCT has written), `cmd_ready` 0, `bus_claim` 1; and a block that
waits has no step but `rst` (log entries 4 and 5). -/
def Obligations.UnansweredReadHangs : Prop :=
  (∀ (s : State) (i : Instr) (a : BusAddr), busReadOf i s.block = some a → nextDraw s.bus = .never →
      ∃ t, exec i s = .next t ∧ t = { s.withRead a with waiting := some i } ∧ cmdReady t = false ∧ busClaim t = true)
    ∧ (∀ (s : State) (i : Instr), s.waiting = some i → (∀ rest, s.inputs ≠ .reset :: rest) → step s = .fault .busHang)

/-- R113: which commands read the bus, at which address, and that none reads it twice; an illegal word never reads it. -/
def Obligations.EachCommandReadsTheBusAtMostOnce : Prop :=
  (∀ (i : Instr) (s : State), ∃ t, exec i s = .next t
      ∧ t.bus = (match busReadOf i s.block with
          | none => s.bus
          | some a => s.bus.afterRead a))
    ∧ (∀ (w : CmdWord) (s : State), w.illegal = true → ∃ t, accept w s = .next t ∧ t.bus = s.bus)

/-- R80, R185, R204: a command gives exactly one response, with its own opcode and with `warn` the level of `degen` in the
state it leaves; unless its bus read is never answered: then it gives none, and the block is as before it. That the block is so
for a CONSTRUCT past its register writes too is the model's inference from R24 and R46 (log entry 4, DEDUCED). -/
def Obligations.EachCommandIsAnsweredOnce : Prop :=
  ∀ (i : Instr) (s : State), ∃ t, exec i s = .next t ∧ t.inputs = s.inputs
    ∧ ((t.waiting = s.waiting
          ∧ ∃ r, t.responses = s.responses ++ [{ op := opcode i, warn := degen t.block, result := r }])
      ∨ (nextDraw s.bus = .never ∧ (busReadOf i s.block).isSome = true
          ∧ t.waiting = some i ∧ t.responses = s.responses ∧ t.block = s.block))

/-! ## The invariant -/

/-- R25: the state after reset meets the invariant. -/
def Obligations.ResetMeetsTheInvariant : Prop := State.reset.Inv

/-- R25 (I-a) to (I-e), R40: every step from a state that meets the invariant leaves one that meets it. What the invariant says
of a command in progress rests on log entry 4 (DEDUCED). -/
def Obligations.StepKeepsTheInvariant : Prop :=
  ∀ s t : State, s.Inv → step s = .next t → t.Inv

/-! ## The decoders and the engine -/

/-- R62: the count field is the mask, shift and OR of the source, which is the slice raw[29:16]; every count is some word's. -/
def Obligations.CountsAreTheFourteenBitField : Prop :=
  (∀ raw : RawWord,
      (countsOf raw).toNat
          = ((raw.extractLsb' 24 8).toNat &&& 0x3F) <<< 8 ||| (raw.extractLsb' 16 8).toNat
        ∧ countsOf raw = raw.extractLsb' 24 6 ++ raw.extractLsb' 16 8
        ∧ countsOf raw = raw.extractLsb' 16 14)
    ∧ (∀ c : Counts, ∃ raw, countsOf raw = c)

/-- R61: a raw word is its four bytes, its status the slice 31:30 and its counts the slice 29:16. -/
def Obligations.RawWordHoldsItsFields : Prop :=
  (∀ b0 b1 b2 b3 : Byte,
      byte0 (packRaw b0 b1 b2 b3) = b0 ∧ byte1 (packRaw b0 b1 b2 b3) = b1
        ∧ byte2 (packRaw b0 b1 b2 b3) = b2 ∧ byte3 (packRaw b0 b1 b2 b3) = b3)
    ∧ (∀ raw : RawWord, packRaw (raw.extractLsb' 24 8) (raw.extractLsb' 16 8) (raw.extractLsb' 8 8) (raw.extractLsb' 0 8) = raw
        ∧ statusOf raw = raw.extractLsb' 30 2 ∧ countsOf raw = raw.extractLsb' 16 14)

/-- R125: status and counts partition the first two bytes, and correspond to them one to one. -/
def Obligations.StatusAndCountsPartitionTheBytes : Prop :=
  (∀ raw : RawWord,
      byte0 raw = (statusOf raw).setWidth 8 <<< 6 ||| ((countsOf raw) >>> 8).setWidth 8
        ∧ byte1 raw = ((countsOf raw) &&& 0xFF#14).setWidth 8)
    ∧ (∀ raw raw' : RawWord, statusOf raw = statusOf raw' → countsOf raw = countsOf raw' →
        raw.extractLsb' 16 16 = raw'.extractLsb' 16 16)
    ∧ (∀ (x : StatusCode) (c : Counts), ∃ raw, statusOf raw = x ∧ countsOf raw = c)

/-- R131, R132: the subtractor and the divisor are exact signed integers, with these ranges and signs. -/
def Obligations.DiffAndSpanAreExact : Prop :=
  (∀ c omin : Counts, diffOf c omin = (c.toNat : Int) - omin.toNat
      ∧ -16383 ≤ diffOf c omin ∧ diffOf c omin ≤ 16383 ∧ (diffOf c omin < 0 ↔ c.toNat < omin.toNat))
    ∧ (∀ omin : Counts, spanOf omin = 14745 - (omin.toNat : Int)
        ∧ -1638 ≤ spanOf omin ∧ spanOf omin ≤ 14745
        ∧ (0 < spanOf omin ↔ omin.toNat < 14745) ∧ (spanOf omin = 0 ↔ omin.toNat = 14745)
        ∧ (spanOf omin < 0 ↔ 14745 < omin.toNat))
    ∧ spanOf 1638#14 = 13107

/-- R133, R134: the engine's result is `tdiv(diff * mpraw, span)` in 48 bits, and there is none exactly where `span = 0`. -/
def Obligations.TransferIsTheTruncatedQuotient : Prop :=
  ∀ (c omin : Counts) (mp : RatedPressure), 0 < mp.toInt →
    (omin.toNat = 14745 → transfer c omin mp.toInt = none)
      ∧ (omin.toNat ≠ 14745 → ∃ p : Pressure, transfer c omin mp.toInt = some p
          ∧ p.toInt = Int.tdiv (((c.toNat : Int) - omin.toNat) * mp.toInt) (14745 - omin.toNat))

/-- R136: no step of the engine overflows; the result is within the rule's bound, and comes within half of it only with
|span| = 1; the largest magnitude any operands give is 14746 * 2147483647 (95_test_vectors.md section 2.3), for exactly one
choice of them; bits 47:45 of the result are copies of its sign. -/
def Obligations.TransferNeverOverflows : Prop :=
  ∀ (c omin : Counts) (mp : RatedPressure), 0 < mp.toInt → spanOf omin ≠ 0 →
    (quotient c omin mp.toInt).natAbs ≤ 16383 * 2147483647
      ∧ (quotient c omin mp.toInt).natAbs < 2 ^ 45
      ∧ (8192 * 2147483647 ≤ (quotient c omin mp.toInt).natAbs → (spanOf omin).natAbs = 1)
      ∧ (quotient c omin mp.toInt).natAbs ≤ 14746 * 2147483647
      ∧ ((quotient c omin mp.toInt).natAbs = 14746 * 2147483647
          ↔ c.toNat = 0 ∧ omin.toNat = 14746 ∧ mp.toInt = 2147483647)
      ∧ (diffOf c omin * mp.toInt).natAbs < 2 ^ 45
      ∧ (diffOf c omin * mp.toInt * 2 ^ 16).natAbs < 2 ^ 61
      ∧ (BitVec.ofInt 48 (quotient c omin mp.toInt)).toInt = quotient c omin mp.toInt
      ∧ (BitVec.ofInt 48 (quotient c omin mp.toInt)).extractLsb' 45 3 = (if quotient c omin mp.toInt < 0 then 7#3 else 0#3)

/-- R137 (a), (f): the result is the exact value truncated toward zero: never longer, off by less than one unit, never of the
opposite sign. -/
def Obligations.ResultIsTruncatedTowardZero : Prop :=
  ∀ (c omin : Counts) (mp : RatedPressure), 0 < mp.toInt → spanOf omin ≠ 0 →
    (quotient c omin mp.toInt * spanOf omin).natAbs ≤ (diffOf c omin * mp.toInt).natAbs
      ∧ (diffOf c omin * mp.toInt - quotient c omin mp.toInt * spanOf omin).natAbs < (spanOf omin).natAbs
      ∧ 0 ≤ quotient c omin mp.toInt * (diffOf c omin * mp.toInt * spanOf omin)
      ∧ (quotient c omin mp.toInt).natAbs = (diffOf c omin * mp.toInt).natAbs / (spanOf omin).natAbs

/-- R137 (b), (e): the count of the zero reference gives exactly 0, and the count 14745 exactly the rated pressure where the
span is positive. -/
def Obligations.ZeroAndRatedCountsAreExact : Prop :=
  (∀ (omin : Counts) (mp : RatedPressure), 0 < mp.toInt → spanOf omin ≠ 0 → transfer omin omin mp.toInt = some 0#48)
    ∧ (∀ (omin : Counts) (mp : RatedPressure), 0 < mp.toInt → 0 < spanOf omin →
        transfer 14745#14 omin mp.toInt = some (mp.signExtend 48))

/-- R137 (c): counts at equal distance on both sides of the zero reference give opposite results. -/
def Obligations.TransferIsOddAboutTheZero : Prop :=
  ∀ (c c' omin : Counts) (mp : RatedPressure), 0 < mp.toInt → spanOf omin ≠ 0 →
    (c.toNat : Int) - omin.toNat = omin.toNat - (c'.toNat : Int) →
      quotient c omin mp.toInt = -quotient c' omin mp.toInt

/-- R137 (d): the result is monotone in the count, falling where the span is negative, and strictly so exactly where one count
step is at least one unit of the last place. -/
def Obligations.TransferIsMonotone : Prop :=
  ∀ (omin : Counts) (mp : RatedPressure), 0 < mp.toInt →
    (0 < spanOf omin →
        (∀ c c' : Counts, c.toNat ≤ c'.toNat → quotient c omin mp.toInt ≤ quotient c' omin mp.toInt)
          ∧ ((∀ c c' : Counts, c.toNat < c'.toNat → quotient c omin mp.toInt < quotient c' omin mp.toInt)
              ↔ spanOf omin ≤ mp.toInt))
      ∧ (spanOf omin < 0 →
        (∀ c c' : Counts, c.toNat ≤ c'.toNat → quotient c' omin mp.toInt ≤ quotient c omin mp.toInt)
          ∧ ((∀ c c' : Counts, c.toNat < c'.toNat → quotient c' omin mp.toInt < quotient c omin mp.toInt)
              ↔ -spanOf omin ≤ mp.toInt))

/-! ## The commands -/

/-- R93, R181, R187: CONSTRUCT. The lifecycle check precedes the configuration check, whatever the operands; both precede
every write and the bus read; then the construction values, and with `autocal` one calibration from one bus read. -/
def Obligations.ConstructFollowsItsRule : Prop :=
  ∀ (s : State) (addr : BusAddr) (maxp : RatedPressure),
    (∀ autocal : Bool, encode (.construct addr maxp autocal) = 0#3 ++ BitVec.ofBool autocal ++ addr ++ maxp)
      ∧ (∀ (g : Regs) (autocal : Bool), s.block = .constructed g →
        exec (.construct addr maxp autocal) s = .next (s.answered 0#3 (flagged g.outputMin) (.fail .alreadyConstructed)))
      ∧ (∀ autocal : Bool, s.block = .unconstructed → maxp.toInt ≤ 0 →
          exec (.construct addr maxp autocal) s = .next (s.answered 0#3 false (.fail .invalidConfiguration)))
      ∧ (s.block = .unconstructed → 0 < maxp.toInt →
          exec (.construct addr maxp false) s
            = .next ((s.withRegs ⟨addr, maxp, 1638#14, false, none, none, none⟩).answered 0#3 false (.ok 0#48)))
      ∧ (∀ raw : RawWord, s.block = .unconstructed → 0 < maxp.toInt → readsWord s.bus raw →
          exec (.construct addr maxp true) s
            = .next (((s.withRead addr).withRegs
                ⟨addr, maxp, raw.extractLsb' 16 14, true, some (raw.extractLsb' 16 14),
                  some (pressureOf (raw.extractLsb' 16 14) 1638#14 maxp), none⟩).answered
                0#3 (flagged (raw.extractLsb' 16 14)) (.ok 0#48)))
      ∧ (∀ f : Failure, s.block = .unconstructed → 0 < maxp.toInt → readFails s.bus f →
          exec (.construct addr maxp true) s = .next ((s.withRead addr).answered 0#3 false (.fail f)))

/-- R94: a construction that fails leaves no instance and no claim on the bus, and a valid CONSTRUCT is accepted after it. -/
def Obligations.FailedConstructionLeavesNoInstance : Prop :=
  ∀ (s t : State) (addr : BusAddr) (maxp : RatedPressure) (autocal warn : Bool) (f : Failure),
    s.block = .unconstructed → s.waiting = none →
    exec (.construct addr maxp autocal) s = .next t →
    t.responses = s.responses ++ [{ op := 0#3, warn := warn, result := .fail f }] →
      t.block = .unconstructed ∧ busClaim t = false ∧ degen t.block = false ∧ cmdReady t = true
        ∧ (f = .invalidConfiguration → maxp.toInt ≤ 0 ∧ t.bus = s.bus)
        ∧ (f ≠ .invalidConfiguration → readFails s.bus f ∧ t.bus = s.bus.afterRead addr)
        ∧ (∀ (addr' : BusAddr) (maxp' : RatedPressure), 0 < maxp'.toInt →
            ∃ u, exec (.construct addr' maxp' false) t = .next u ∧ life u.block = true)

/-- R96: DISCARD, in every state: UNCONSTRUCTED, Ok(0), nothing else; `degen` and `bus_claim` are 0 after it. -/
def Obligations.DiscardDestroysTheInstance : Prop :=
  encode .discard = 0xE0000000000#44
    ∧ (∀ s : State,
        exec .discard s = .next ({ s with block := .unconstructed }.answered 7#3 false (.ok 0#48)))
    ∧ (∀ s t : State, s.waiting = none → exec .discard s = .next t → degen t.block = false ∧ busClaim t = false)
    ∧ (Response.mk 7#3 false (.ok 0#48)).word = 0x1C0000000000000#57

/-- R112: FETCH_RAW. One bus read; its word as the value; no register written, on success or failure. -/
def Obligations.FetchRawFollowsItsRule : Prop :=
  encode .fetchRaw = 0x20000000000#44
    ∧ (∀ s : State, s.block = .unconstructed →
        exec .fetchRaw s = .next (s.answered 1#3 false (.fail .notConstructed)))
    ∧ (∀ (s : State) (g : Regs), s.block = .constructed g →
        (∀ raw : RawWord, readsWord s.bus raw →
            exec .fetchRaw s
              = .next ((s.withRead g.busAddr).answered 1#3 (flagged g.outputMin) (.ok (raw.setWidth 48))))
          ∧ (∀ f : Failure, readFails s.bus f →
            exec .fetchRaw s = .next ((s.withRead g.busAddr).answered 1#3 (flagged g.outputMin) (.fail f))))

/-- R121, R123, R124: DECODE_COUNTS and DECODE_STATUS, answered with the field of the operand in every state; no register
written, no bus read. -/
def Obligations.PureDecodersAnswerInEveryState : Prop :=
  ∀ (s : State) (raw : RawWord),
    encode (.decodeCounts raw) = 0x50000000000#44 ||| raw.setWidth 44
      ∧ encode (.decodeStatus raw) = 0x70000000000#44 ||| raw.setWidth 44
      ∧ exec (.decodeCounts raw) s
          = .next (s.answered 2#3 (degen s.block) (.ok ((raw.extractLsb' 16 14).setWidth 48)))
      ∧ exec (.decodeStatus raw) s
          = .next (s.answered 3#3 (degen s.block) (.ok ((raw.extractLsb' 30 2).setWidth 48)))

/-- R141: GET_PRESSURE in raw form. Counts and pressure written; where `output_min` is 14745 the counts only, and the failure;
no bus read. -/
def Obligations.GetPressureRawFollowsItsRule : Prop :=
  ∀ (s : State) (raw : RawWord),
    encode (.getPressureR raw) = 0x90000000000#44 ||| raw.setWidth 44
      ∧ (s.block = .unconstructed →
          exec (.getPressureR raw) s = .next (s.answered 4#3 false (.fail .notConstructed)))
      ∧ (∀ g : Regs, s.block = .constructed g → g.outputMin ≠ 14745#14 →
          exec (.getPressureR raw) s
            = .next ((s.withRegs { g with
                outputCounts := some (raw.extractLsb' 16 14)
                pressure := some (pressureOf (raw.extractLsb' 16 14) g.outputMin g.maxPressure) }).answered
                4#3 (flagged g.outputMin) (.ok (pressureOf (raw.extractLsb' 16 14) g.outputMin g.maxPressure))))
      ∧ (∀ g : Regs, s.block = .constructed g → g.outputMin = 14745#14 →
          exec (.getPressureR raw) s
            = .next ((s.withRegs { g with outputCounts := some (raw.extractLsb' 16 14) }).answered
                4#3 true (.fail .degenerateCalibration)))

/-- R140, R142: GET_PRESSURE in bus form. A bus-read failure writes nothing, and comes before the arithmetic one; else as the
raw form, after one bus read. -/
def Obligations.GetPressureBusFollowsItsRule : Prop :=
  encode .getPressureB = 0x80000000000#44
    ∧ (∀ s : State, s.block = .unconstructed →
        exec .getPressureB s = .next (s.answered 4#3 false (.fail .notConstructed)))
    ∧ (∀ (s : State) (g : Regs), s.block = .constructed g →
        (∀ f : Failure, readFails s.bus f →
            exec .getPressureB s = .next ((s.withRead g.busAddr).answered 4#3 (flagged g.outputMin) (.fail f)))
          ∧ (∀ raw : RawWord, readsWord s.bus raw → g.outputMin ≠ 14745#14 →
            exec .getPressureB s
              = .next (((s.withRead g.busAddr).withRegs { g with
                  outputCounts := some (raw.extractLsb' 16 14)
                  pressure := some (pressureOf (raw.extractLsb' 16 14) g.outputMin g.maxPressure) }).answered
                  4#3 (flagged g.outputMin) (.ok (pressureOf (raw.extractLsb' 16 14) g.outputMin g.maxPressure))))
          ∧ (∀ raw : RawWord, readsWord s.bus raw → g.outputMin = 14745#14 →
            exec .getPressureB s
              = .next (((s.withRead g.busAddr).withRegs { g with outputCounts := some (raw.extractLsb' 16 14) }).answered
                  4#3 true (.fail .degenerateCalibration))))

/-- R142: GET_PRESSURE in bus form is FETCH_RAW and then the raw form of the word it returned, as one command: the same
registers, the same bus, and the last of their two responses. -/
def Obligations.BusPressureIsFetchThenRaw : Prop :=
  ∀ (s : State) (g : Regs) (raw : RawWord), s.block = .constructed g → readsWord s.bus raw →
    ∃ t u v r1 r2, exec .fetchRaw s = .next t ∧ exec (.getPressureR raw) t = .next u ∧ exec .getPressureB s = .next v
      ∧ v.block = u.block ∧ v.bus = u.bus ∧ v.waiting = u.waiting
      ∧ u.responses = s.responses ++ [r1, r2] ∧ v.responses = s.responses ++ [r2]

/-- R146: GET_STATUS in raw form. The status is written and answered, whatever its code; nothing else, no bus read. -/
def Obligations.GetStatusRawFollowsItsRule : Prop :=
  ∀ (s : State) (raw : RawWord),
    encode (.getStatusR raw) = 0xB0000000000#44 ||| raw.setWidth 44
      ∧ (s.block = .unconstructed →
          exec (.getStatusR raw) s = .next (s.answered 5#3 false (.fail .notConstructed)))
      ∧ (∀ g : Regs, s.block = .constructed g →
          exec (.getStatusR raw) s
            = .next ((s.withRegs { g with status := some (raw.extractLsb' 30 2) }).answered
                5#3 (flagged g.outputMin) (.ok ((raw.extractLsb' 30 2).setWidth 48))))

/-- R147: GET_STATUS in bus form. One bus read of its own; the status written only where it succeeds; the counts the reading
carries are not written. -/
def Obligations.GetStatusBusFollowsItsRule : Prop :=
  encode .getStatusB = 0xA0000000000#44
    ∧ (∀ s : State, s.block = .unconstructed →
        exec .getStatusB s = .next (s.answered 5#3 false (.fail .notConstructed)))
    ∧ (∀ (s : State) (g : Regs), s.block = .constructed g →
        (∀ f : Failure, readFails s.bus f →
            exec .getStatusB s = .next ((s.withRead g.busAddr).answered 5#3 (flagged g.outputMin) (.fail f)))
          ∧ (∀ raw : RawWord, readsWord s.bus raw →
            exec .getStatusB s
              = .next (((s.withRead g.busAddr).withRegs { g with status := some (raw.extractLsb' 30 2) }).answered
                  5#3 (flagged g.outputMin) (.ok ((raw.extractLsb' 30 2).setWidth 48)))))

/-- R161, R162: CALIBRATE. With counts cached, they become the zero and the bus is not read; with none, one bus read stores
counts and pressure against the old zero first, and a failure of that read changes nothing. `pressure` is not recomputed. -/
def Obligations.CalibrateFollowsItsRule : Prop :=
  encode .calibrate = 0xC0000000000#44
    ∧ (∀ s : State, s.block = .unconstructed →
        exec .calibrate s = .next (s.answered 6#3 false (.fail .notConstructed)))
    ∧ (∀ (s : State) (g : Regs) (c : Counts), s.block = .constructed g → g.outputCounts = some c →
        exec .calibrate s
          = .next ((s.withRegs { g with outputMin := c, calibrated := true }).answered
              6#3 (flagged c) (.ok (c.setWidth 48))))
    ∧ (∀ (s : State) (g : Regs), s.block = .constructed g → g.Inv → g.outputCounts = none →
        (∀ raw : RawWord, readsWord s.bus raw →
            exec .calibrate s
              = .next (((s.withRead g.busAddr).withRegs { g with
                  outputMin := raw.extractLsb' 16 14
                  calibrated := true
                  outputCounts := some (raw.extractLsb' 16 14)
                  pressure := some (pressureOf (raw.extractLsb' 16 14) g.outputMin g.maxPressure) }).answered
                  6#3 (flagged (raw.extractLsb' 16 14)) (.ok ((raw.extractLsb' 16 14).setWidth 48))))
          ∧ (∀ f : Failure, readFails s.bus f →
            exec .calibrate s = .next ((s.withRead g.busAddr).answered 6#3 false (.fail f))))

/-- R166: a CALIBRATE that fails leaves the registers as they were, and fails only with its bus read; one in the Calibrated
state does not fail. -/
def Obligations.CalibrateFailsOnlyWithItsRead : Prop :=
  (∀ (s t : State) (g : Regs) (warn : Bool) (f : Failure), s.block = .constructed g → g.Inv →
      exec .calibrate s = .next t → t.responses = s.responses ++ [{ op := 6#3, warn := warn, result := .fail f }] →
        t.block = s.block ∧ readFails s.bus f ∧ g.calibrated = false)
    ∧ (∀ (s : State) (g : Regs), s.block = .constructed g → g.Inv → g.calibrated = true →
      ∃ t v, exec .calibrate s = .next t ∧ t.bus = s.bus
        ∧ t.responses = s.responses ++ [{ op := 6#3, warn := degen t.block, result := .ok v }])

/-- R186: the six commands that need an instance are refused in UNCONSTRUCTED, nothing written and no bus read. -/
def Obligations.InstanceCommandsAreRefusedWithoutOne : Prop :=
  ∀ (s : State) (i : Instr), s.block = .unconstructed → (∀ a m b, i ≠ .construct a m b) →
    (∀ raw, i ≠ .decodeCounts raw) → (∀ raw, i ≠ .decodeStatus raw) → i ≠ .discard →
      exec i s = .next (s.answered (opcode i) false (.fail .notConstructed))

/-! ## Rules of the whole machine -/

/-- R64: bytes 2 and 3 of a raw operand are don't-care; GET_PRESSURE does not see the status bits, nor GET_STATUS the count. -/
def Obligations.UnusedOperandBitsAreIgnored : Prop :=
  ∀ (s : State) (raw raw' : RawWord),
    (raw.extractLsb' 16 16 = raw'.extractLsb' 16 16 →
        exec (.decodeCounts raw) s = exec (.decodeCounts raw') s ∧ exec (.decodeStatus raw) s = exec (.decodeStatus raw') s
          ∧ exec (.getPressureR raw) s = exec (.getPressureR raw') s ∧ exec (.getStatusR raw) s = exec (.getStatusR raw') s)
      ∧ (raw.extractLsb' 16 14 = raw'.extractLsb' 16 14 → exec (.getPressureR raw) s = exec (.getPressureR raw') s)
      ∧ (raw.extractLsb' 30 2 = raw'.extractLsb' 30 2 → exec (.getStatusR raw) s = exec (.getStatusR raw') s)

/-- R29, R97: which registers of an instance each command can change; only DISCARD ends the instance, only CONSTRUCT makes one. -/
def Obligations.OnlyTheNamedCommandsWriteARegister : Prop :=
  (∀ (s t : State) (g : Regs) (i : Instr), s.block = .constructed g → exec i s = .next t → i ≠ .discard →
      ∃ g', t.block = .constructed g' ∧ g'.busAddr = g.busAddr ∧ g'.maxPressure = g.maxPressure
        ∧ (i ≠ .calibrate → g'.outputMin = g.outputMin ∧ g'.calibrated = g.calibrated)
        ∧ (i ≠ .calibrate → i ≠ .getPressureB → (∀ raw, i ≠ .getPressureR raw) →
            g'.outputCounts = g.outputCounts ∧ g'.pressure = g.pressure)
        ∧ (i ≠ .getStatusB → (∀ raw, i ≠ .getStatusR raw) → g'.status = g.status))
    ∧ (∀ (s t : State) (i : Instr), s.block = .unconstructed → exec i s = .next t → (∀ a m b, i ≠ .construct a m b) →
      t.block = .unconstructed)

/-- R90: no command clears a valid bit of an instance; they go from 0 to 1 only, until DISCARD. -/
def Obligations.ValidBitsAreNeverClearedAlone : Prop :=
  ∀ (s t : State) (g : Regs) (i : Instr), s.block = .constructed g → exec i s = .next t → i ≠ .discard →
    ∃ g', t.block = .constructed g' ∧ (g.outputCounts.isSome = true → g'.outputCounts.isSome = true)
      ∧ (g.pressure.isSome = true → g'.pressure.isSome = true) ∧ (g.status.isSome = true → g'.status.isSome = true)
      ∧ (g.calibrated = true → g'.calibrated = true)

/-- R11, R18, R21: `calibrated`, `pressure` and `status` are observation only: instances that differ in them answer every
command alike, read the bus alike, and still agree in the other registers. -/
def Obligations.ObservationRegistersSteerNothing : Prop :=
  ∀ (s : State) (i : Instr) (g g' : Regs),
    g'.busAddr = g.busAddr → g'.maxPressure = g.maxPressure → g'.outputMin = g.outputMin →
    g'.outputCounts = g.outputCounts →
      ∃ t t', exec i (s.withRegs g) = .next t ∧ exec i (s.withRegs g') = .next t'
        ∧ t'.responses = t.responses ∧ t'.bus = t.bus ∧ t'.waiting = t.waiting
        ∧ (regsOf t'.block).map (fun r => (r.busAddr, r.maxPressure, r.outputMin, r.outputCounts))
            = (regsOf t.block).map (fun r => (r.busAddr, r.maxPressure, r.outputMin, r.outputCounts))

/-- R14: the bus address is opaque: instances that differ in it alone, meeting the same draws, answer every command alike. -/
def Obligations.BusAddressIsOpaque : Prop :=
  ∀ (s : State) (i : Instr) (g : Regs) (a : BusAddr),
    ∃ t t', exec i (s.withRegs g) = .next t ∧ exec i (s.withRegs { g with busAddr := a }) = .next t'
      ∧ t'.responses = t.responses ∧ t'.waiting = t.waiting ∧ t'.bus.requests.length = t.bus.requests.length
      ∧ (regsOf t'.block) = (regsOf t.block).map (fun r => { r with busAddr := a })

/-- R143: a second GET_PRESSURE of the same raw reading gives the same response and changes no register. -/
def Obligations.GetPressureIsIdempotent : Prop :=
  ∀ (s : State) (g : Regs) (raw : RawWord), s.block = .constructed g →
    ∃ t u r, exec (.getPressureR raw) s = .next t ∧ exec (.getPressureR raw) t = .next u ∧ u.block = t.block
      ∧ t.responses = s.responses ++ [r] ∧ u.responses = t.responses ++ [r]

/-- R163: a CALIBRATE right after a completed one reads no bus, changes no register and answers the same. -/
def Obligations.RecalibrationChangesNothing : Prop :=
  ∀ (s t : State) (warn : Bool) (v : Value), exec .calibrate s = .next t →
    t.responses = s.responses ++ [{ op := 6#3, warn := warn, result := .ok v }] →
      ∃ u, exec .calibrate t = .next u ∧ u.block = t.block ∧ u.bus = t.bus
        ∧ u.responses = t.responses ++ [{ op := 6#3, warn := warn, result := .ok v }]

/-- R167: calibrating on a reading makes its count the zero: GET_PRESSURE of the reading, CALIBRATE, and then GET_PRESSURE of
any reading with the same count answers exactly 0; likewise where CALIBRATE took the reading from the bus. -/
def Obligations.CalibratingOnAReadingZeroesIt : Prop :=
  (∀ (s : State) (g : Regs) (raw raw' : RawWord), s.block = .constructed g →
      raw.extractLsb' 16 14 ≠ 14745#14 → raw'.extractLsb' 16 14 = raw.extractLsb' 16 14 →
        ∃ t u v g', exec (.getPressureR raw) s = .next t ∧ exec .calibrate t = .next u
          ∧ exec (.getPressureR raw') u = .next v ∧ v.block = .constructed g'
          ∧ g'.outputMin = raw.extractLsb' 16 14 ∧ g'.calibrated = true ∧ g'.pressure = some 0#48
          ∧ v.responses = u.responses
              ++ [{ op := 4#3, warn := flagged (raw.extractLsb' 16 14), result := .ok 0#48 }])
    ∧ (∀ (s : State) (g : Regs) (raw raw' : RawWord), s.block = .constructed g → g.Inv → g.outputCounts = none →
      readsWord s.bus raw → raw.extractLsb' 16 14 ≠ 14745#14 → raw'.extractLsb' 16 14 = raw.extractLsb' 16 14 →
        ∃ u v, exec .calibrate s = .next u ∧ exec (.getPressureR raw') u = .next v
          ∧ v.responses = u.responses
              ++ [{ op := 4#3, warn := flagged (raw.extractLsb' 16 14), result := .ok 0#48 }])

/-- R165: a calibration at a count of 14745 or more is written and answered OK, with `warn` and `degen` 1; one at a lower count
ends the condition. -/
def Obligations.DegenerateCalibrationIsWrittenAndFlagged : Prop :=
  ∀ (s : State) (g : Regs) (c : Counts), s.block = .constructed g → g.outputCounts = some c →
    ∃ t g', exec .calibrate s = .next t ∧ t.block = .constructed g' ∧ g'.outputMin = c
      ∧ (14745 ≤ c.toNat → degen t.block = true
          ∧ t.responses = s.responses ++ [{ op := 6#3, warn := true, result := .ok (c.setWidth 48) }])
      ∧ (c.toNat < 14745 → degen t.block = false
          ∧ t.responses = s.responses ++ [{ op := 6#3, warn := false, result := .ok (c.setWidth 48) }])

/-- R135, R137 (d): with `output_min` above 14745 GET_PRESSURE answers, never fails, with `warn` 1 and the slope inverted: the
value is of the opposite sign to `c - output_min` or 0, exactly 0 at `output_min`, and not 0 elsewhere where the rated pressure
is at least |span|, so that one count step is a unit of the last place. -/
def Obligations.NegativeSpanInvertsTheSlope : Prop :=
  ∀ (s : State) (g : Regs) (raw : RawWord), s.block = .constructed g → 0 < g.maxPressure.toInt →
    14745 < g.outputMin.toNat →
      ∃ t p, exec (.getPressureR raw) s = .next t
        ∧ t.responses = s.responses ++ [{ op := 4#3, warn := true, result := .ok p }]
        ∧ ((raw.extractLsb' 16 14).toNat ≤ g.outputMin.toNat → 0 ≤ p.toInt)
        ∧ (g.outputMin.toNat ≤ (raw.extractLsb' 16 14).toNat → p.toInt ≤ 0)
        ∧ ((g.outputMin.toNat : Int) - 14745 ≤ g.maxPressure.toInt →
            ((raw.extractLsb' 16 14).toNat < g.outputMin.toNat → 0 < p.toInt)
              ∧ (g.outputMin.toNat < (raw.extractLsb' 16 14).toNat → p.toInt < 0))

/-- R75, R223, of READ_BOTH as the model writes it (log entry 9): it reads the bus once, and the pressure and the status it
leaves are of that one reading. Where `output_min` is 14745 its GET_PRESSURE fails and its GET_STATUS is issued all the same.
Where its FETCH_RAW fails, by the bus or for want of an instance, or is never answered (log entry 4), nothing else is issued. -/
def Obligations.ReadBothUsesOneSample : Prop :=
  (∀ (s : State) (g : Regs) (raw : RawWord), s.waiting = none → s.block = .constructed g → g.outputMin ≠ 14745#14 →
      readsWord s.bus raw →
        readBoth s = .next { (s.withRead g.busAddr).withRegs { g with
            outputCounts := some (raw.extractLsb' 16 14)
            pressure := some (pressureOf (raw.extractLsb' 16 14) g.outputMin g.maxPressure)
            status := some (raw.extractLsb' 30 2) } with
          responses := s.responses
            ++ [{ op := 1#3, warn := flagged g.outputMin, result := .ok (raw.setWidth 48) },
                { op := 4#3, warn := flagged g.outputMin,
                  result := .ok (pressureOf (raw.extractLsb' 16 14) g.outputMin g.maxPressure) },
                { op := 5#3, warn := flagged g.outputMin, result := .ok ((raw.extractLsb' 30 2).setWidth 48) }] })
    ∧ (∀ (s : State) (g : Regs) (f : Failure), s.waiting = none → s.block = .constructed g → readFails s.bus f →
      readBoth s = .next ((s.withRead g.busAddr).answered 1#3 (flagged g.outputMin) (.fail f)))
    ∧ (∀ (s : State) (g : Regs) (raw : RawWord), s.waiting = none → s.block = .constructed g → g.outputMin = 14745#14 →
      readsWord s.bus raw →
        readBoth s = .next { (s.withRead g.busAddr).withRegs { g with
            outputCounts := some (raw.extractLsb' 16 14)
            status := some (raw.extractLsb' 30 2) } with
          responses := s.responses
            ++ [{ op := 1#3, warn := true, result := .ok (raw.setWidth 48) },
                { op := 4#3, warn := true, result := .fail .degenerateCalibration },
                { op := 5#3, warn := true, result := .ok ((raw.extractLsb' 30 2).setWidth 48) }] })
    ∧ (∀ s : State, s.block = .unconstructed → readBoth s = .next (s.answered 1#3 false (.fail .notConstructed)))
    ∧ (∀ (s : State) (g : Regs), s.block = .constructed g → nextDraw s.bus = .never →
      readBoth s = .next { s.withRead g.busAddr with waiting := some .fetchRaw })

/-- R23: the three derived outputs. -/
def Obligations.DerivedOutputsFollowTheState : Prop :=
  (∀ (s : State) (g : Regs), s.block = .constructed g →
      (∃ b : BitVec 16, (ports s).qSpan = some b ∧ b.toInt = 14745 - (g.outputMin.toNat : Int))
        ∧ -1638 ≤ spanOf g.outputMin ∧ spanOf g.outputMin ≤ 14745
        ∧ ((ports s).qDegen = true ↔ 14745 ≤ g.outputMin.toNat) ∧ (ports s).qBusClaim = true)
    ∧ (∀ s : State, s.block = .unconstructed →
      (ports s).qSpan = none ∧ (ports s).qDegen = false
        ∧ ((ports s).qBusClaim = true ↔ ∃ addr maxp autocal, s.waiting = some (.construct addr maxp autocal)))

/-- R24, R212: every register of an instance is on its port, a cached register behind its valid bit; in UNCONSTRUCTED only
`q_life`, `q_degen` and `q_bus_claim` carry a value, 0 where no CONSTRUCT is in progress. -/
def Obligations.PortsShowTheRegisters : Prop :=
  (∀ (s : State) (g : Regs), s.block = .constructed g →
      (ports s).qLife = true
        ∧ (ports s).qBusAddr = some g.busAddr ∧ (ports s).qMaxPressure = some g.maxPressure
        ∧ (ports s).qOutputMin = some g.outputMin ∧ (ports s).qCalibrated = some g.calibrated
        ∧ (∃ v, (ports s).qCountsValid = some v ∧ (v = true ↔ (ports s).qOutputCounts.isSome = true))
        ∧ (ports s).qOutputCounts = g.outputCounts
        ∧ (∃ v, (ports s).qPressureValid = some v ∧ (v = true ↔ (ports s).qPressure.isSome = true))
        ∧ (ports s).qPressure = g.pressure
        ∧ (∃ v, (ports s).qStatusValid = some v ∧ (v = true ↔ (ports s).qStatus.isSome = true))
        ∧ (ports s).qStatus = g.status)
    ∧ (∀ s : State, s.block = .unconstructed →
      (ports s).qLife = false ∧ (ports s).qDegen = false ∧ (s.waiting = none → (ports s).qBusClaim = false)
        ∧ (ports s).qBusAddr = none ∧ (ports s).qMaxPressure = none ∧ (ports s).qOutputMin = none
        ∧ (ports s).qCalibrated = none ∧ (ports s).qCountsValid = none ∧ (ports s).qOutputCounts = none
        ∧ (ports s).qPressureValid = none ∧ (ports s).qPressure = none ∧ (ports s).qStatusValid = none
        ∧ (ports s).qStatus = none ∧ (ports s).qSpan = none)
end

