-- ==== Sys2Proof/Laws/Decode.lean ====
section
/-! SUPPORT. Packing and unpacking the fields of a command word are inverse (R71). -/

namespace Sys2Proof

theorem pack_op (x : CmdFields) : (pack x).extractLsb' 41 3 = x.op := by
  apply BitVec.eq_of_getLsbD_eq
  intro i hi
  simp only [pack, BitVec.getLsbD_extractLsb', BitVec.getLsbD_append]
  simp [hi, show ¬ 41 + i < 32 by omega, show ¬ 41 + i - 32 < 8 by omega, show ¬ 41 + i - 32 - 8 < 1 by omega,
    show 41 + i - 32 - 8 - 1 = i by omega]

theorem pack_f (x : CmdFields) : (pack x).getLsbD 40 = x.f := by
  simp only [pack, BitVec.getLsbD_append]
  cases x.f <;> simp

theorem pack_hi (x : CmdFields) : (pack x).extractLsb' 32 8 = x.hi := by
  apply BitVec.eq_of_getLsbD_eq
  intro i hi
  simp only [pack, BitVec.getLsbD_extractLsb', BitVec.getLsbD_append]
  simp [hi, show ¬ 32 + i < 32 by omega, show 32 + i - 32 = i by omega]

theorem pack_lo (x : CmdFields) : (pack x).extractLsb' 0 32 = x.lo := by
  apply BitVec.eq_of_getLsbD_eq
  intro i hi
  simp only [pack, BitVec.getLsbD_extractLsb', BitVec.getLsbD_append]
  simp [hi]

theorem unpack_pack (x : CmdFields) : unpack (pack x) = x := by
  simp only [unpack, pack_op, pack_f, pack_hi, pack_lo]

theorem pack_unpack (w : CmdWord) : pack (unpack w) = w := by
  apply BitVec.eq_of_getLsbD_eq
  intro i hi
  simp only [pack, unpack, BitVec.getLsbD_append, BitVec.getLsbD_extractLsb']
  rcases Nat.lt_or_ge i 32 with h | h
  · simp [h]
  rcases Nat.lt_or_ge i 40 with h2 | h2
  · simp [show ¬ i < 32 by omega, show i - 32 < 8 by omega, show 32 + (i - 32) = i by omega]
  rcases Nat.eq_or_lt_of_le h2 with h3 | h3
  · subst h3
    cases hb : w.getLsbD 40 <;> simp
  · simp [show ¬ i < 32 by omega, show ¬ i - 32 < 8 by omega, show ¬ i - 32 - 8 < 1 by omega,
      show i - 32 - 8 - 1 < 3 by omega, show 41 + (i - 32 - 8 - 1) = i by omega]

/-- The SQ16.16 value of a decimal that is one (R75): it is determined by the decimal. -/
theorem sq16_of_mul_eq (d : Decimal) (q : Int) (h : q * (10 ^ d.places : Nat) = d.mantissa * 65536) (hl : -2 ^ 31 ≤ q)
    (hu : q ≤ 2 ^ 31 - 1) : d.sq16 = some q := by
  have hp : ((10 ^ d.places : Nat) : Int) ≠ 0 := by positivity
  have hd : d.mantissa * 65536 / (10 ^ d.places : Nat) = q := by rw [← h, Int.mul_ediv_cancel _ hp]
  simp only [Decimal.sq16, hd]
  rw [if_pos ⟨h, hl, hu⟩]

/-- The eight opcodes (R70). -/
theorem opBits_cases :
    ∀ op : OpBits, op = 0#3 ∨ op = 1#3 ∨ op = 2#3 ∨ op = 3#3 ∨ op = 4#3 ∨ op = 5#3 ∨ op = 6#3 ∨ op = 7#3 := by
  decide

/-- A word whose high fields are fixed and whose operand is `raw`, as a number (R72). -/
theorem toNat_or_raw (k : CmdWord) (hk : k.toNat % 2 ^ 32 = 0) (raw : RawWord) :
    (k ||| raw.setWidth 44).toNat = k.toNat + raw.toNat := by
  have h := raw.isLt
  obtain ⟨q, hq⟩ : ∃ q, k.toNat = 2 ^ 32 * q := ⟨k.toNat / 2 ^ 32, by omega⟩
  simp only [BitVec.toNat_or, BitVec.toNat_setWidth]
  rw [Nat.mod_eq_of_lt (by omega), hq, Nat.two_pow_add_eq_or_of_lt h]

end Sys2Proof
end

