-- ==== Sys2Proof/Laws/State.lean ====
section
/-! SUPPORT. One lemma per field per update of the registers and of the state, so that no proof unfolds a record update. -/

namespace Sys2Proof.Machine

@[simp] theorem Regs.setCounts_busAddr (g : Regs) (c : Counts) : (g.setCounts c).busAddr = g.busAddr := rfl
@[simp] theorem Regs.setCounts_maxPressure (g : Regs) (c : Counts) : (g.setCounts c).maxPressure = g.maxPressure := rfl
@[simp] theorem Regs.setCounts_outputMin (g : Regs) (c : Counts) : (g.setCounts c).outputMin = g.outputMin := rfl
@[simp] theorem Regs.setCounts_calibrated (g : Regs) (c : Counts) : (g.setCounts c).calibrated = g.calibrated := rfl
@[simp] theorem Regs.setCounts_outputCounts (g : Regs) (c : Counts) : (g.setCounts c).outputCounts = some c := rfl
@[simp] theorem Regs.setCounts_pressure (g : Regs) (c : Counts) : (g.setCounts c).pressure = g.pressure := rfl
@[simp] theorem Regs.setCounts_status (g : Regs) (c : Counts) : (g.setCounts c).status = g.status := rfl

@[simp] theorem Regs.setPressure_busAddr (g : Regs) (p : Pressure) : (g.setPressure p).busAddr = g.busAddr := rfl
@[simp] theorem Regs.setPressure_maxPressure (g : Regs) (p : Pressure) : (g.setPressure p).maxPressure = g.maxPressure := rfl
@[simp] theorem Regs.setPressure_outputMin (g : Regs) (p : Pressure) : (g.setPressure p).outputMin = g.outputMin := rfl
@[simp] theorem Regs.setPressure_calibrated (g : Regs) (p : Pressure) : (g.setPressure p).calibrated = g.calibrated := rfl
@[simp] theorem Regs.setPressure_outputCounts (g : Regs) (p : Pressure) : (g.setPressure p).outputCounts = g.outputCounts := rfl
@[simp] theorem Regs.setPressure_pressure (g : Regs) (p : Pressure) : (g.setPressure p).pressure = some p := rfl
@[simp] theorem Regs.setPressure_status (g : Regs) (p : Pressure) : (g.setPressure p).status = g.status := rfl

@[simp] theorem Regs.setStatus_busAddr (g : Regs) (x : StatusCode) : (g.setStatus x).busAddr = g.busAddr := rfl
@[simp] theorem Regs.setStatus_maxPressure (g : Regs) (x : StatusCode) : (g.setStatus x).maxPressure = g.maxPressure := rfl
@[simp] theorem Regs.setStatus_outputMin (g : Regs) (x : StatusCode) : (g.setStatus x).outputMin = g.outputMin := rfl
@[simp] theorem Regs.setStatus_calibrated (g : Regs) (x : StatusCode) : (g.setStatus x).calibrated = g.calibrated := rfl
@[simp] theorem Regs.setStatus_outputCounts (g : Regs) (x : StatusCode) : (g.setStatus x).outputCounts = g.outputCounts := rfl
@[simp] theorem Regs.setStatus_pressure (g : Regs) (x : StatusCode) : (g.setStatus x).pressure = g.pressure := rfl
@[simp] theorem Regs.setStatus_status (g : Regs) (x : StatusCode) : (g.setStatus x).status = some x := rfl

@[simp] theorem Regs.setZero_busAddr (g : Regs) (m : Counts) : (g.setZero m).busAddr = g.busAddr := rfl
@[simp] theorem Regs.setZero_maxPressure (g : Regs) (m : Counts) : (g.setZero m).maxPressure = g.maxPressure := rfl
@[simp] theorem Regs.setZero_outputMin (g : Regs) (m : Counts) : (g.setZero m).outputMin = m := rfl
@[simp] theorem Regs.setZero_calibrated (g : Regs) (m : Counts) : (g.setZero m).calibrated = true := rfl
@[simp] theorem Regs.setZero_outputCounts (g : Regs) (m : Counts) : (g.setZero m).outputCounts = g.outputCounts := rfl
@[simp] theorem Regs.setZero_pressure (g : Regs) (m : Counts) : (g.setZero m).pressure = g.pressure := rfl
@[simp] theorem Regs.setZero_status (g : Regs) (m : Counts) : (g.setZero m).status = g.status := rfl

@[simp] theorem State.setWork_block (s : State) (w : Work) :
    (s.setWork w).block = .constructed w.regs := rfl
@[simp] theorem State.setWork_waiting (s : State) (w : Work) :
    (s.setWork w).waiting = s.waiting := rfl
@[simp] theorem State.setWork_inputs (s : State) (w : Work) :
    (s.setWork w).inputs = s.inputs := rfl
@[simp] theorem State.setWork_bus (s : State) (w : Work) :
    (s.setWork w).bus = w.bus := rfl
@[simp] theorem State.setWork_responses (s : State) (w : Work) :
    (s.setWork w).responses = s.responses := rfl

@[simp] theorem State.hangIn_block (s : State) (i : Instr) (b : Bus) :
    (s.hangIn i b).block = s.block := rfl
@[simp] theorem State.hangIn_waiting (s : State) (i : Instr) (b : Bus) :
    (s.hangIn i b).waiting = some i := rfl
@[simp] theorem State.hangIn_inputs (s : State) (i : Instr) (b : Bus) :
    (s.hangIn i b).inputs = s.inputs := rfl
@[simp] theorem State.hangIn_bus (s : State) (i : Instr) (b : Bus) :
    (s.hangIn i b).bus = b := rfl
@[simp] theorem State.hangIn_responses (s : State) (i : Instr) (b : Bus) :
    (s.hangIn i b).responses = s.responses := rfl

@[simp] theorem State.dropInstance_block (s : State) (b : Bus) :
    (s.dropInstance b).block = .unconstructed := rfl
@[simp] theorem State.dropInstance_waiting (s : State) (b : Bus) :
    (s.dropInstance b).waiting = s.waiting := rfl
@[simp] theorem State.dropInstance_inputs (s : State) (b : Bus) :
    (s.dropInstance b).inputs = s.inputs := rfl
@[simp] theorem State.dropInstance_bus (s : State) (b : Bus) :
    (s.dropInstance b).bus = b := rfl
@[simp] theorem State.dropInstance_responses (s : State) (b : Bus) :
    (s.dropInstance b).responses = s.responses := rfl

@[simp] theorem respond_block (op : OpBits) (r : Result) (s : State) :
    (respond op r s).block = s.block := rfl
@[simp] theorem respond_waiting (op : OpBits) (r : Result) (s : State) :
    (respond op r s).waiting = s.waiting := rfl
@[simp] theorem respond_inputs (op : OpBits) (r : Result) (s : State) :
    (respond op r s).inputs = s.inputs := rfl
@[simp] theorem respond_bus (op : OpBits) (r : Result) (s : State) :
    (respond op r s).bus = s.bus := rfl
@[simp] theorem respond_responses (op : OpBits) (r : Result) (s : State) :
    (respond op r s).responses = s.responses ++ [{ op := op, warn := degen s.block, result := r }] := rfl

@[simp] theorem resetBlock_block (s : State) :
    (resetBlock s).block = .unconstructed := rfl
@[simp] theorem resetBlock_waiting (s : State) :
    (resetBlock s).waiting = none := rfl
@[simp] theorem resetBlock_inputs (s : State) :
    (resetBlock s).inputs = s.inputs := rfl
@[simp] theorem resetBlock_bus (s : State) :
    (resetBlock s).bus = s.bus := rfl
@[simp] theorem resetBlock_responses (s : State) :
    (resetBlock s).responses = s.responses := rfl

@[simp] theorem State.withFetchWord_block (s : State) (n k : Nat) :
    (s.withFetchWord n k).block = s.block := rfl
@[simp] theorem State.withFetchWord_waiting (s : State) (n k : Nat) :
    (s.withFetchWord n k).waiting = s.waiting := rfl
@[simp] theorem State.withFetchWord_inputs (s : State) (n k : Nat) :
    (s.withFetchWord n k).inputs = .command (BitVec.ofNat 44 k) :: s.inputs := rfl
@[simp] theorem State.withFetchWord_bus (s : State) (n k : Nat) :
    (s.withFetchWord n k).bus = s.bus := rfl
@[simp] theorem State.withFetchWord_responses (s : State) (n k : Nat) :
    (s.withFetchWord n k).responses = s.responses := rfl

@[simp] theorem failWith_eq_respond (op : OpBits) (f : Failure) (s : State) : failWith op f s = respond op (.fail f) s := rfl

@[simp] theorem afterRequest_lined (b : Bus) (q : BusRequest) : (b.afterRequest q).lined = b.lined.tail := rfl

@[simp] theorem afterRequest_requests (b : Bus) (q : BusRequest) : (b.afterRequest q).requests = b.requests ++ [q] := rfl

end Sys2Proof.Machine
end

