-- ==== Sys2Proof/Laws/Transfer.lean ====
section
/-! SUPPORT. The engine's arithmetic: `tdiv` is the library's division truncated toward zero; the common factor 2^16 cancels. -/

namespace Sys2Proof.Machine

theorem tdiv_eq (n d : Int) : tdiv n d = Int.tdiv n d := by
  rcases Int.eq_nat_or_neg n with ⟨a, rfl | rfl⟩ <;> rcases Int.eq_nat_or_neg d with ⟨b, rfl | rfl⟩ <;>
    rcases Nat.eq_zero_or_pos a with rfl | ha <;> rcases Nat.eq_zero_or_pos b with rfl | hb <;>
    simp [tdiv, Int.sign_natCast_of_ne_zero, Nat.ne_of_gt, Int.tdiv_neg, Int.neg_tdiv, *]

theorem spanOf_eq (omin : Counts) : spanOf omin = 14745 - (omin.toNat : Int) := rfl

theorem diffOf_eq (c omin : Counts) : diffOf c omin = (c.toNat : Int) - omin.toNat := rfl

theorem spanOf_eq_zero_iff (omin : Counts) : spanOf omin = 0 ↔ omin = 14745#14 := by
  rw [spanOf_eq, ← BitVec.toNat_inj, show (14745#14).toNat = 14745 from rfl]
  omega

/-- With `P_F = MP_F` the factor 2^16 cancels (R133). -/
theorem quotient_eq (c omin : Counts) (mp : Int) : quotient c omin mp = Int.tdiv (diffOf c omin * mp) (spanOf omin) := by
  simp only [quotient, tdiv_eq, Config.pFrac, Config.mpFrac]
  exact Int.mul_tdiv_mul_of_pos_left _ _ (by decide)

theorem transfer_none_iff (c omin : Counts) (mp : Int) : transfer c omin mp = none ↔ omin = 14745#14 := by
  simp [transfer, spanOf_eq_zero_iff]

theorem transfer_some (c omin : Counts) (mp : Int) (h : omin ≠ 14745#14) :
    transfer c omin mp = some (BitVec.ofInt 48 (quotient c omin mp)) := by
  simp [transfer, spanOf_eq_zero_iff, h]

/-- The engine's result where the span is not 0, in the statements' own terms. -/
theorem transfer_eq_pressureOf (c omin : Counts) (mp : RatedPressure) (h : omin ≠ 14745#14) :
    transfer c omin mp.toInt = some (pressureOf c omin mp) := by
  rw [transfer_some _ _ _ h, quotient_eq]
  rfl

end Sys2Proof.Machine
end

