-- ==== Sys2Proof/Laws/Ops.lean ====
section
/-! SUPPORT. What each shared operation can do, said once: the bus read, FetchRaw, the end of a command, the exec arms. -/

namespace Sys2Proof.Machine

@[simp] theorem Res.bind_ok {α β : Type} (v : α) (w : Work) (k : α → Work → Res β) : (Res.ok v w).bind k = k v w := rfl

@[simp] theorem Res.bind_raise {α β : Type} (f : Failure) (w : Work) (k : α → Work → Res β) :
    (Res.raise f w).bind k = .raise f w := rfl

@[simp] theorem Res.bind_hang {α β : Type} (w : Work) (k : α → Work → Res β) : (Res.hang w).bind k = .hang w := rfl

@[simp] theorem nextDraw_cons (d : BusDraw) (ds : List BusDraw) (rs : List BusRequest) :
    nextDraw { lined := d :: ds, requests := rs } = d := rfl

@[simp] theorem rawOrFetch_some (raw : RawWord) (w : Work) : rawOrFetch (some raw) w = .ok raw w := rfl

@[simp] theorem rawOrFetch_none (w : Work) : rawOrFetch none w = fetchRaw w := rfl

@[simp] theorem degen_unconstructed : degen .unconstructed = false := rfl

@[simp] theorem degen_constructed (g : Regs) : degen (.constructed g) = flagged g.outputMin := rfl

@[simp] theorem life_unconstructed : life .unconstructed = false := rfl

@[simp] theorem life_constructed (g : Regs) : life (.constructed g) = true := rfl

@[simp] theorem blockInv_unconstructed : Block.unconstructed.Inv := trivial

@[simp] theorem blockInv_constructed (g : Regs) : (Block.constructed g).Inv ↔ g.Inv := Iff.rfl

/-- The four bytes of a word, packed again, are the word (R61). -/
theorem packRaw_bytes (raw : RawWord) : packRaw (byte0 raw) (byte1 raw) (byte2 raw) (byte3 raw) = raw := by
  apply BitVec.eq_of_getLsbD_eq
  intro i hi
  simp only [packRaw, byte0, byte1, byte2, byte3, BitVec.getLsbD_append, BitVec.getLsbD_extractLsb']
  rcases Nat.lt_or_ge i 8 with h | h
  · simp [h]
  rcases Nat.lt_or_ge i 16 with h2 | h2
  · simp [show ¬ i < 8 by omega, show i - 8 < 8 by omega, show 8 + (i - 8) = i by omega]
  rcases Nat.lt_or_ge i 24 with h3 | h3
  · simp [show ¬ i < 8 by omega, show ¬ i - 8 < 8 by omega, show i - 8 - 8 < 8 by omega, show 16 + (i - 8 - 8) = i by omega]
  · simp [show ¬ i < 8 by omega, show ¬ i - 8 < 8 by omega, show ¬ i - 8 - 8 < 8 by omega,
      show i - 8 - 8 - 8 < 8 by omega, show 24 + (i - 8 - 8 - 8) = i by omega]

/-- The work a bus read leaves: the registers as they were, the bus after the one request (R111). -/
abbrev Work.afterRead (w : Work) : Work := { regs := w.regs, bus := w.bus.afterRead w.regs.busAddr }

theorem fetchRaw_never (w : Work) (h : nextDraw w.bus = .never) : fetchRaw w = .hang w.afterRead := by
  simp [fetchRaw, busRead, h, Bus.afterRead, Bus.afterRequest, Config.busReg, Config.busLen]

theorem fetchRaw_err (w : Work) (rsp : BusRsp) (h : nextDraw w.bus = .answer rsp) (he : rsp.err = true) :
    fetchRaw w = .raise (.busError rsp.cause) w.afterRead := by
  simp [fetchRaw, busRead, h, busAnswer, he, Bus.afterRead, Bus.afterRequest, Config.busReg, Config.busLen]

theorem fetchRaw_full (w : Work) (rsp : BusRsp) (h : nextDraw w.bus = .answer rsp) (he : rsp.err = false)
    (hk : 4 ≤ rsp.count.toNat) : fetchRaw w = .ok rsp.data w.afterRead := by
  simp [fetchRaw, busRead, h, busAnswer, he, Nat.min_eq_right hk, rawOfBytes, packRaw_bytes, Bus.afterRead,
    Bus.afterRequest, Config.busReg, Config.busLen]

theorem fetchRaw_short (w : Work) (rsp : BusRsp) (h : nextDraw w.bus = .answer rsp) (he : rsp.err = false)
    (hk : rsp.count.toNat < 4) : fetchRaw w = .raise (.shortRead (rsp.count.setWidth 2)) w.afterRead := by
  have hc : rsp.count.toNat = 0 ∨ rsp.count.toNat = 1 ∨ rsp.count.toNat = 2 ∨ rsp.count.toNat = 3 := by omega
  have hs : ∀ k : Nat, rsp.count.toNat = k → rsp.count.setWidth 2 = BitVec.ofNat 2 k := by
    intro k hk
    apply BitVec.eq_of_toNat_eq
    simp [hk]
  rcases hc with hc | hc | hc | hc <;>
    simp [fetchRaw, busRead, h, busAnswer, he, hc, hs _ hc, rawOfBytes, Bus.afterRead, Bus.afterRequest, Config.busReg,
      Config.busLen]

/-- Everything FetchRaw can do (R111): hang, BusError, ShortRead, or the word; one request on the bus in each case. -/
theorem fetchRaw_cases (w : Work) :
    (nextDraw w.bus = .never ∧ fetchRaw w = .hang w.afterRead)
      ∨ (∃ rsp, nextDraw w.bus = .answer rsp ∧ rsp.err = true ∧ fetchRaw w = .raise (.busError rsp.cause) w.afterRead)
      ∨ (∃ rsp, nextDraw w.bus = .answer rsp ∧ rsp.err = false ∧ rsp.count.toNat < 4
          ∧ fetchRaw w = .raise (.shortRead (rsp.count.setWidth 2)) w.afterRead)
      ∨ (∃ rsp, nextDraw w.bus = .answer rsp ∧ rsp.err = false ∧ 4 ≤ rsp.count.toNat
          ∧ fetchRaw w = .ok rsp.data w.afterRead) := by
  cases h : nextDraw w.bus with
  | never => exact .inl ⟨rfl, fetchRaw_never w h⟩
  | answer rsp =>
    cases he : rsp.err with
    | true => exact .inr (.inl ⟨rsp, rfl, he, fetchRaw_err w rsp h he⟩)
    | false =>
      rcases Nat.lt_or_ge rsp.count.toNat 4 with hk | hk
      · exact .inr (.inr (.inl ⟨rsp, rfl, he, hk, fetchRaw_short w rsp h he hk⟩))
      · exact .inr (.inr (.inr ⟨rsp, rfl, he, hk, fetchRaw_full w rsp h he hk⟩))

/-- FetchRaw where the next read is answered with a whole reading. -/
theorem fetchRaw_readsWord (g : Regs) (b : Bus) (raw : RawWord) (h : readsWord b raw) :
    fetchRaw { regs := g, bus := b } = .ok raw { regs := g, bus := b.afterRead g.busAddr } := by
  obtain ⟨rsp, h, he, hk, rfl⟩ := h
  exact fetchRaw_full { regs := g, bus := b } rsp h he hk

/-- FetchRaw where the next read fails: that failure, no register written. -/
theorem fetchRaw_readFails (g : Regs) (b : Bus) (f : Failure) (h : readFails b f) :
    fetchRaw { regs := g, bus := b } = .raise f { regs := g, bus := b.afterRead g.busAddr } := by
  obtain ⟨rsp, h, ⟨he, rfl⟩ | ⟨he, hk, rfl⟩⟩ := h
  · exact fetchRaw_err { regs := g, bus := b } rsp h he
  · rw [fetchRaw_short { regs := g, bus := b } rsp h he hk]
    exact congrArg (fun k => Res.raise (.shortRead k) _) (BitVec.eq_of_toNat_eq (by simp))

/-- The next bus read is one of three things: never answered, a whole reading, or a failure. -/
theorem nextDraw_cases (b : Bus) : nextDraw b = .never ∨ (∃ raw, readsWord b raw) ∨ (∃ f, readFails b f) := by
  cases h : nextDraw b with
  | never => exact .inl rfl
  | answer rsp =>
    cases he : rsp.err with
    | true => exact .inr (.inr ⟨_, rsp, h, .inl ⟨he, rfl⟩⟩)
    | false =>
      rcases Nat.lt_or_ge rsp.count.toNat 4 with hk | hk
      · exact .inr (.inr ⟨_, rsp, h, .inr ⟨he, hk, rfl⟩⟩)
      · exact .inr (.inl ⟨_, rsp, h, he, hk, rfl⟩)

/-- FetchRaw where the next read is never answered. -/
theorem fetchRaw_hangs (g : Regs) (b : Bus) (h : nextDraw b = .never) :
    fetchRaw { regs := g, bus := b } = .hang { regs := g, bus := b.afterRead g.busAddr } :=
  fetchRaw_never { regs := g, bus := b } h

/-- What `GetPressure` does with a reading (R140): both registers written, or the counts only and DegenerateCalibration. -/
theorem storeReading_cases (raw : RawWord) (w : Work) :
    (w.regs.outputMin ≠ 14745#14 ∧ ∃ p, transfer (countsOf raw) w.regs.outputMin w.regs.maxPressure.toInt = some p
        ∧ storeReading raw w
          = .ok (countsOf raw, p) { w with regs := (w.regs.setCounts (countsOf raw)).setPressure p })
      ∨ (w.regs.outputMin = 14745#14
        ∧ storeReading raw w = .raise .degenerateCalibration { w with regs := w.regs.setCounts (countsOf raw) }) := by
  by_cases h : w.regs.outputMin = 14745#14
  · have ht := (transfer_none_iff (countsOf raw) w.regs.outputMin w.regs.maxPressure.toInt).2 h
    exact .inr ⟨h, by simp [storeReading, ht]⟩
  · have ht := transfer_some (countsOf raw) w.regs.outputMin w.regs.maxPressure.toInt h
    exact .inl ⟨h, _, ht, by simp [storeReading, ht]⟩

@[simp] theorem finish_ok (i : Instr) (s : State) (v : Value) (w : Work) :
    finish i s (.ok v w) = respond (opcode i) (.ok v) (s.setWork w) := rfl

@[simp] theorem finish_raise (i : Instr) (s : State) (f : Failure) (w : Work) :
    finish i s (.raise f w) = respond (opcode i) (.fail f) (s.setWork w) := rfl

@[simp] theorem finish_hang (i : Instr) (s : State) (w : Work) : finish i s (.hang w) = s.hangIn i w.bus := rfl

theorem onConstructed_unconstructed (i : Instr) (body : Work → Res Value) (s : State) (h : s.block = .unconstructed) :
    onConstructed i body s = respond (opcode i) (.fail .notConstructed) s := by
  simp [onConstructed, h]

theorem onConstructed_constructed (i : Instr) (body : Work → Res Value) (s : State) (g : Regs)
    (h : s.block = .constructed g) : onConstructed i body s = finish i s (body { regs := g, bus := s.bus }) := by
  simp [onConstructed, h]

@[simp] theorem finishConstruct_ok (i : Instr) (s : State) (c : Counts) (w : Work) :
    finishConstruct i s (.ok c w) = respond (opcode i) (.ok 0#48) (s.setWork w) := rfl

@[simp] theorem finishConstruct_raise (i : Instr) (s : State) (f : Failure) (w : Work) :
    finishConstruct i s (.raise f w) = respond (opcode i) (.fail f) (s.dropInstance w.bus) := rfl

@[simp] theorem finishConstruct_hang (i : Instr) (s : State) (w : Work) :
    finishConstruct i s (.hang w) = s.hangIn i w.bus := rfl

theorem currentCounts_some (w : Work) (c : Counts) (h : w.regs.outputCounts = some c) : currentCounts w = .ok c w := by
  simp [currentCounts, h]

theorem currentCounts_none (w : Work) (h : w.regs.outputCounts = none) :
    currentCounts w = (takeReading none w).bind fun cp w' => .ok cp.1 w' := by
  simp [currentCounts, h]

/-- `respond` written out. -/
theorem respond_eq (op : OpBits) (r : Result) (s : State) :
    respond op r s = { s with responses := s.responses ++ [{ op := op, warn := degen s.block, result := r }] } := rfl

end Sys2Proof.Machine
end

