-- ==== Sys2Proof/Laws/Operands.lean ====
section
/-! SUPPORT. The operand forms bit by bit (42_decode.md): which bit of the raw word each bit of a field is. -/

namespace Sys2Proof.Machine

/-- Bit i of the count is bit 16 + i of the word (R120). -/
theorem getLsbD_countsOf (raw : RawWord) (i : Nat) (hi : i < 14) : (countsOf raw).getLsbD i = raw.getLsbD (16 + i) := by
  have hm : ∀ k : Fin 8, (0x3F#8).getLsbD k = decide (k.val < 6) := by decide
  simp only [countsOf, byte0, byte1, BitVec.getLsbD_or, BitVec.getLsbD_shiftLeft, BitVec.getLsbD_setWidth,
    BitVec.getLsbD_and, BitVec.getLsbD_extractLsb']
  rcases Nat.lt_or_ge i 8 with h | h
  · simp [h, hi]
  · have hk := hm ⟨i - 8, by omega⟩
    simp only at hk
    simp [hi, show ¬ i < 8 by omega, hk, show i - 8 < 6 by omega, show 24 + (i - 8) = 16 + i by omega,
      show i - 8 < 14 by omega, show i - 8 < 8 by omega]

/-- Bit i of the status is bit 30 + i of the word (R122). -/
theorem getLsbD_statusOf (raw : RawWord) (i : Nat) (hi : i < 2) : (statusOf raw).getLsbD i = raw.getLsbD (30 + i) := by
  have hm : ∀ k : Fin 8, (0xC0#8).getLsbD k = decide (6 ≤ k.val) := by decide
  have hk := hm ⟨6 + i, by omega⟩
  simp only at hk
  simp only [statusOf, byte0, BitVec.getLsbD_ushiftRight, BitVec.getLsbD_setWidth, BitVec.getLsbD_and,
    BitVec.getLsbD_extractLsb', hk]
  simp [hi, show 6 + i < 8 by omega, show 24 + (6 + i) = 30 + i by omega]

end Sys2Proof.Machine
end

