-- ==== Sys2Proof/Laws/PerInstr.lean ====
section
/-! SUPPORT. Laws stated per instruction: the word of an instruction stands under that instruction's row of the table
(30_encoding.md rule R72). -/

namespace Sys2Proof.Laws.RowSelectsWord

/-- The row's mask and match select the instruction's word (R72). -/
def Statement (i : Instr) : Prop := encode i &&& rowMask i = rowMatch i

/-- Masking a word whose low bits are free leaves the fixed high fields. -/
theorem mask_of_high (x : CmdFields) : pack x &&& 0xFFF00000000#44 = pack { x with lo := 0#32 } := by
  apply BitVec.eq_of_getLsbD_eq
  intro i hi
  have hm : (0xFFF00000000#44).getLsbD i = decide (32 ≤ i) := by
    have : ∀ j : Fin 44, (0xFFF00000000#44).getLsbD j = decide (32 ≤ j.val) := by decide
    exact this ⟨i, hi⟩
  simp only [BitVec.getLsbD_and, hm, pack, BitVec.getLsbD_append]
  rcases Nat.lt_or_ge i 32 with h | h
  · simp [h, show ¬ 32 ≤ i by omega]
  · simp [h, show ¬ i < 32 by omega]

theorem construct (addr : BusAddr) (maxp : RatedPressure) (autocal : Bool) :
    Statement (.construct addr maxp autocal) := by
  show encode _ &&& 0xE0000000000#44 = 0x00000000000#44
  apply BitVec.eq_of_getLsbD_eq
  intro i hi
  have hm : (0xE0000000000#44).getLsbD i = decide (41 ≤ i) := by
    have : ∀ j : Fin 44, (0xE0000000000#44).getLsbD j = decide (41 ≤ j.val) := by decide
    exact this ⟨i, hi⟩
  simp only [encode, fieldsOf, opcode, BitVec.getLsbD_and, hm, pack, BitVec.getLsbD_append]
  rcases Nat.lt_or_ge i 41 with h | h
  · simp [show ¬ 41 ≤ i by omega]
  · simp [h, show ¬ i < 32 by omega, show ¬ i - 32 < 8 by omega, show ¬ i - 32 - 8 < 1 by omega]

theorem fetchRaw : Statement .fetchRaw := by
  unfold Statement
  decide

theorem decodeCounts (raw : RawWord) : Statement (.decodeCounts raw) :=
  (mask_of_high (fieldsOf (.decodeCounts raw))).trans
    (show pack (CmdFields.mk 2#3 true 0#8 0#32) = 0x50000000000#44 by decide)

theorem decodeStatus (raw : RawWord) : Statement (.decodeStatus raw) :=
  (mask_of_high (fieldsOf (.decodeStatus raw))).trans
    (show pack (CmdFields.mk 3#3 true 0#8 0#32) = 0x70000000000#44 by decide)

theorem getPressureR (raw : RawWord) : Statement (.getPressureR raw) :=
  (mask_of_high (fieldsOf (.getPressureR raw))).trans
    (show pack (CmdFields.mk 4#3 true 0#8 0#32) = 0x90000000000#44 by decide)

theorem getPressureB : Statement .getPressureB := by
  unfold Statement
  decide

theorem getStatusR (raw : RawWord) : Statement (.getStatusR raw) :=
  (mask_of_high (fieldsOf (.getStatusR raw))).trans
    (show pack (CmdFields.mk 5#3 true 0#8 0#32) = 0xB0000000000#44 by decide)

theorem getStatusB : Statement .getStatusB := by
  unfold Statement
  decide

theorem calibrate : Statement .calibrate := by
  unfold Statement
  decide

theorem discard : Statement .discard := by
  unfold Statement
  decide

end Sys2Proof.Laws.RowSelectsWord
end

