-- ==== Sys2Proof/Tests/Slice0.lean ====
section
/-! SUPPORT. The model's own tests: small facts on fixed values, each expected result taken from the spec (95_test_vectors.md
unless another rule is named), and a witness for the hypotheses of each statement. -/

namespace Sys2Proof.Tests

open Sys2Proof.Machine

/-! ## Decoding: words written out bit by bit from the patterns of R72 -/

theorem test_decode_construct :
    decode 0b00010010100000000000011001000000000000000000#44 = .instr (.construct 0x28#8 0x00640000#32 true) := by decide

theorem test_decode_construct_plain :
    decode 0b00000010100000000000011001000000000000000000#44 = .instr (.construct 0x28#8 0x00640000#32 false) := by decide

theorem test_decode_fetchRaw : decode 0b00100000000000000000000000000000000000000000#44 = .instr .fetchRaw := by decide

theorem test_decode_decodeCounts :
    decode 0b01010000000000011001100110010000000000000000#44 = .instr (.decodeCounts 0x19990000#32) := by decide

theorem test_decode_decodeStatus :
    decode 0b01110000000001000000000000000000000000000000#44 = .instr (.decodeStatus 0x40000000#32) := by decide

theorem test_decode_getPressureR :
    decode 0b10010000000000011001100110010000000000000000#44 = .instr (.getPressureR 0x19990000#32) := by decide

theorem test_decode_getPressureB : decode 0b10000000000000000000000000000000000000000000#44 = .instr .getPressureB := by decide

theorem test_decode_getStatusR :
    decode 0b10110000000001000000000000000000000000000000#44 = .instr (.getStatusR 0x40000000#32) := by decide

theorem test_decode_getStatusB : decode 0b10100000000000000000000000000000000000000000#44 = .instr .getStatusB := by decide

theorem test_decode_calibrate : decode 0b11000000000000000000000000000000000000000000#44 = .instr .calibrate := by decide

theorem test_decode_discard : decode 0b11100000000000000000000000000000000000000000#44 = .instr .discard := by decide

/-- The illegal words of 95_test_vectors.md section 2.4, each refused by the name of its reason. -/
theorem test_decode_illegal :
    decode 0x30000000000#44 = .illegal .operandFlagSet ∧ decode 0x80000000001#44 = .illegal .loNotZero
      ∧ decode 0x40019990000#44 = .illegal .rawOperandMissing ∧ decode 0x90119990000#44 = .illegal .hiNotZero
      ∧ decode 0xC0000000005#44 = .illegal .loNotZero ∧ decode 0xF0000000000#44 = .illegal .operandFlagSet := by decide

/-! ## Well-formedness: an ill-formed term for each check -/

theorem test_illFormed_words :
    CmdWord.illegal 0x30000000000#44 = true ∧ CmdWord.illegal 0x20100000000#44 = true
      ∧ CmdWord.illegal 0xC0000000005#44 = true ∧ CmdWord.illegal 0x40019990000#44 = true
      ∧ CmdWord.illegal 0x90119990000#44 = true ∧ CmdWord.illegal 0x80000000001#44 = true
      ∧ CmdWord.illegal 0x90019990000#44 = false := by decide

theorem test_illFormed_lines :
    Line.wellFormed (.construct 256 ⟨100, 0⟩ false) = false ∧ Line.wellFormed (.construct 40 ⟨1, 1⟩ false) = false
      ∧ Line.wellFormed (.construct 40 ⟨32768, 0⟩ false) = false ∧ Line.wellFormed (.decodeCounts [0x19, 0x99]) = false
      ∧ Line.wellFormed (.getPressure (some [0x19, 0x99, 0, 256])) = false
      ∧ Line.wellFormed (.construct 40 ⟨1000, 1⟩ false) = true := by decide

/-- The lines of 30_encoding.md R75 as words: `maxp=100.0` is 0x00640000. -/
theorem test_assemble :
    assemble (.construct 0x28 ⟨1000, 1⟩ false) = some (.construct 0x28#8 0x00640000#32 false)
      ∧ assemble (.construct 0x28 ⟨-10, 1⟩ false) = some (.construct 0x28#8 0xFFFF0000#32 false)
      ∧ assemble (.getPressure (some [0x19, 0x99, 0x00, 0x00])) = some (.getPressureR 0x19990000#32)
      ∧ assemble (.getPressure none) = some .getPressureB := by decide

/-! ## Single steps -/

/-- A constructed instance right after CONSTRUCT addr=0x28 maxp=100.0. -/
def inst : Regs := freshRegs 0x28#8 0x00640000#32

/-- An instance and the draws its bus reads meet. -/
def atInst (g : Regs) (draws : List BusDraw) : State :=
  { State.reset with block := .constructed g, bus := { lined := draws, requests := [] } }

/-- An answer with this many bytes. -/
def reading (count : BitVec 3) (data : BitVec 32) : BusDraw := .answer { err := false, cause := 0#2, count := count, data := data }

/-- A failed answer. -/
def failing (cause : Info) : BusDraw := .answer { err := true, cause := cause, count := 0#3, data := 0#32 }

/-- The state an outcome goes on with. -/
def nextOf (o : Host.Outcome State Fault Refusal) : Option State :=
  match o with
  | .next s => some s
  | .fault _ => none
  | .refused _ => none

/-- The last response word and the registers after one command. -/
def seen (o : Host.Outcome State Fault Refusal) : Option (RspWord × Option Regs) :=
  (nextOf o).bind fun s => s.responses.getLast?.map fun r => (r.word, regsOf s.block)

theorem test_construct :
    seen (step (State.reset.withFetchWord 48 0x02800640000))
      = some (0x000000000000000#57, some ⟨0x28#8, 0x00640000#32, 1638#14, false, none, none, none⟩) := by decide

/-- Section 2.5: the auto-calibration read fails with a NACK; scenario 3 where it succeeds. -/
theorem test_construct_autocal :
    seen (exec (.construct 0x28#8 0x00640000#32 true) { State.reset with bus := ⟨[failing 2#2], []⟩ })
        = some (0x012000000000000#57, none)
      ∧ seen (exec (.construct 0x28#8 0x00640000#32 true) { State.reset with bus := ⟨[reading 4#3 0x06660000#32], []⟩ })
        = some (0x000000000000000#57, some ⟨0x28#8, 0x00640000#32, 1638#14, true, some 1638#14, some 0#48, none⟩) := by
  decide

theorem test_fetchRaw :
    seen (exec .fetchRaw (atInst inst [reading 4#3 0x99991234#32])) = some (0x040000099991234#57, some inst) := by decide

/-- R112: the draw BusFail(3). -/
theorem test_fetchRaw_fails :
    seen (exec .fetchRaw (atInst inst [failing 3#2])) = some (0x053000000000000#57, some inst) := by decide

/-- 0xA55A0000 holds counts 0x255A and status 2 (section 2.1), answered without an instance too. -/
theorem test_decodeCounts : seen (exec (.decodeCounts 0xA55A0000#32) State.reset) = some (0x08000000000255A#57, none) := by decide

theorem test_decodeStatus : seen (exec (.decodeStatus 0xA55A0000#32) State.reset) = some (0x0C0000000000002#57, none) := by decide

/-- Scenario 1. -/
theorem test_getPressureR :
    seen (exec (.getPressureR 0x19990000#32) (atInst inst []))
      = some (0x100000000257FC1#57, some { inst with outputCounts := some 6553#14, pressure := some 2457537#48 }) := by
  decide

/-- Program 3, line 9: span 0; the counts are written, the pressure is not. -/
theorem test_getPressureR_degenerate :
    seen (exec (.getPressureR 0x3FFF0000#32) (atInst { inst with outputMin := 14745#14, pressure := some 6553600#48 } []))
      = some (0x124000000000000#57,
          some { inst with outputMin := 14745#14, outputCounts := some 16383#14, pressure := some 6553600#48 }) := by
  decide

/-- Program 4, line 4: two bytes are a ShortRead although they would do. -/
theorem test_getPressureB_short :
    seen (exec .getPressureB (atInst inst [reading 2#3 0x19990000#32])) = some (0x11A000000000000#57, some inst) := by decide

/-- Section 2.3: count 0 from the zero 1638 is -819012, below zero; `bus_rsp_count` 7 is read as 4 (R42). -/
theorem test_getPressureB :
    seen (exec .getPressureB (atInst inst [reading 7#3 0x00000000#32]))
      = some (0x100FFFFFFF380BC#57,
          some { inst with outputCounts := some 0#14, pressure := some 0xFFFFFFF380BC#48 }) := by
  decide

theorem test_getStatusR :
    seen (exec (.getStatusR 0x80000000#32) (atInst inst []))
      = some (0x140000000000002#57, some { inst with status := some 2#2 }) := by decide

theorem test_getStatusB :
    seen (exec .getStatusB (atInst inst [reading 4#3 0xD9990000#32]))
      = some (0x140000000000003#57, some { inst with status := some 3#2 }) := by decide

/-- R161: the first calibration reads the bus; the pressure is relative to the old zero. -/
theorem test_calibrate_first :
    seen (exec .calibrate (atInst inst [reading 4#3 0x4800AA55#32]))
      = some (0x180000000000800#57,
          some { inst with outputMin := 2048#14, calibrated := true, outputCounts := some 2048#14, pressure := some 205003#48 }) := by
  decide

/-- Program 3, line 7: a degenerate calibration from the cached counts, `warn` 1, no bus read. -/
theorem test_calibrate_cached :
    seen (exec .calibrate (atInst { inst with outputCounts := some 14745#14 } []))
      = some (0x184000000003999#57,
          some { inst with outputMin := 14745#14, calibrated := true, outputCounts := some 14745#14 }) := by
  decide

theorem test_discard : seen (exec .discard (atInst inst [])) = some (0x1C0000000000000#57, none) := by decide

theorem test_illegalCommand :
    seen (step ((atInst inst []).withFetchWord 48 0x80000000001)) = some (0x138000000000000#57, some inst) := by decide

/-- Section 2.3, span -1 and the largest rated pressure: the largest magnitude any state can reach. -/
theorem test_transfer_extreme :
    transfer 0#14 14746#14 2147483647 = some 31666793858662#48 ∧ transfer 1637#14 1638#14 6553600 = some (BitVec.ofInt 48 (-500))
      ∧ transfer 100#14 14745#14 6553600 = none := by decide

/-- R24, R23: the ports of a fresh instance, and of none. -/
theorem test_ports :
    (ports (atInst inst [])).qSpan = some 13107#16 ∧ (ports (atInst inst [])).qCountsValid = some false
      ∧ (ports (atInst inst [])).qBusClaim = true ∧ (ports State.reset).qSpan = none
      ∧ (ports State.reset).qBusClaim = false := by decide

/-- R46, R213: a read never answered, and the reset out of it. -/
theorem test_hang_and_reset :
    (nextOf (exec .fetchRaw (atInst inst [.never]))).map cmdReady = some false
      ∧ (nextOf (step { atInst inst [] with waiting := some .fetchRaw, inputs := [.reset] })).map (·.block)
        = some .unconstructed := by decide

/-! ## Witnesses: concrete values that meet the hypotheses of each statement -/

/-- An instance with an `output_min`, a positive rated pressure and cached counts. -/
def zeroedAt (m : Counts) : Regs := { inst with outputMin := m, calibrated := true, outputCounts := some m }

theorem inst_inv : inst.Inv := by unfold Regs.Inv; decide

theorem zeroedAt_inv : (zeroedAt 14745#14).Inv := by unfold Regs.Inv; decide

theorem reads_reading : readsWord (atInst inst [reading 4#3 0x19990000#32]).bus 0x19990000#32 :=
  ⟨_, rfl, rfl, by decide, rfl⟩

/-- The two failures of a read, the short one at its largest count. -/
theorem fails_reading :
    readFails (atInst inst [failing 3#2]).bus (.busError 3#2)
      ∧ readFails (atInst inst [reading 3#3 0x19990000#32]).bus (.shortRead 3#2) :=
  ⟨⟨_, rfl, .inl ⟨rfl, rfl⟩⟩, ⟨_, rfl, .inr ⟨rfl, by decide, rfl⟩⟩⟩

theorem test_witness_DecodeInvertsEncode : Instr.wellFormed (.construct 0xFF#8 0x80000000#32 true) = true := by decide

theorem test_witness_EncodeInvertsDecode : decode 0x70040000000#44 = .instr (.decodeStatus 0x40000000#32) := by decide

theorem test_witness_IllegalWordsAreTheListedOnes :
    (State.reset.withFetchWord 48 0x30000000000).waiting = none
      ∧ (State.reset.withFetchWord 48 0x30000000000).inputs = [.command 0x30000000000#44]
      ∧ CmdWord.illegal 0x30000000000#44 = true ∧ (0x1FFFFFFFFFF#44).extractLsb' 41 3 = 0#3 := by decide

theorem test_witness_RowsSelectWordsDisjointly :
    0x500A55A0000#44 &&& rowMask (.decodeCounts 0#32) = rowMatch (.decodeCounts 0#32)
      ∧ 0x500A55A0000#44 &&& rowMask (.decodeCounts 7#32) = rowMatch (.decodeCounts 7#32)
      ∧ decode 0x500A55A0000#44 = .instr (.decodeCounts 0xA55A0000#32) := by decide

/-- `maxp` at both ends of its range: 32767.9999847412109375 and -32768. -/
theorem test_witness_LinesAssembleWhereWellFormed :
    (0x7FFFFFFF#32).toInt * (10 ^ 16 : Nat) = 327679999847412109375 * 65536
      ∧ (0x80000000#32).toInt * (10 ^ 0 : Nat) = -32768 * 65536 := by decide

theorem test_witness_StepRunsTheDecodedInstruction :
    (State.reset.withFetchWord 48 0xE0000000000).waiting = none
      ∧ (State.reset.withFetchWord 48 0xE0000000000).inputs = [.command 0xE0000000000#44]
      ∧ decode 0xE0000000000#44 = .instr .discard := by decide

theorem test_witness_ResetLeavesUnconstructed :
    ({ atInst inst [] with waiting := some .fetchRaw, inputs := [.reset] } : State).inputs = [.reset] := by decide

theorem test_witness_IdleBlockHoldsItsState : (atInst inst []).waiting = none ∧ (atInst inst []).inputs = [] := by decide

theorem test_witness_UnansweredReadHangs :
    busReadOf .calibrate (atInst inst [.never]).block = some 0x28#8 ∧ nextDraw (atInst inst [.never]).bus = .never
      ∧ busReadOf (.construct 0x28#8 1#32 true) .unconstructed = some 0x28#8
      ∧ ({ atInst inst [] with waiting := some .calibrate } : State).waiting = some .calibrate
      ∧ ({ atInst inst [] with waiting := some .calibrate } : State).inputs = [] := by decide

theorem test_witness_EachCommandReadsTheBusAtMostOnce : CmdWord.illegal 0xF0000000000#44 = true := by decide

/-- The invariant is met by an instance, in idle and waiting states, and a step of it answers a next state. -/
theorem test_witness_StepKeepsTheInvariant :
    (atInst (zeroedAt 14745#14) []).Inv ∧ ({ State.reset with waiting := some (.construct 0#8 1#32 true) } : State).Inv
      ∧ (nextOf (step ((atInst (zeroedAt 14745#14) []).withFetchWord 48 0xC0000000000))).isSome = true := by
  refine ⟨⟨zeroedAt_inv, by simp [atInst, State.reset], by unfold requestsInv; decide⟩, ⟨trivial, ?_, by unfold requestsInv; decide⟩, by decide⟩
  intro i hi
  have : i = .construct 0#8 1#32 true := (Option.mem_some.1 hi).symm
  subst this
  exact ⟨rfl, by decide, rfl⟩

theorem test_witness_StatusAndCountsPartitionTheBytes :
    statusOf 0xD9990000#32 = statusOf 0xD999FFFF#32 ∧ countsOf 0xD9990000#32 = countsOf 0xD999FFFF#32 := by decide

/-- The operands of the largest magnitude, 95_test_vectors.md section 2.3, row 31, meet both of its clauses. -/
theorem test_witness_TransferNeverOverflows :
    0 < (0x7FFFFFFF#32).toInt ∧ spanOf 14746#14 ≠ 0
      ∧ (quotient 0#14 14746#14 (0x7FFFFFFF#32).toInt).natAbs = 31666793858662 ∧ 14746 * 2147483647 = 31666793858662
      ∧ 8192 * 2147483647 ≤ 31666793858662 := by decide

/-- For TransferIsTheTruncatedQuotient, TransferNeverOverflows, ResultIsTruncatedTowardZero, ZeroAndRatedCountsAreExact and
TransferIsMonotone: the smallest and largest rated pressure, and the zeros next to the value without a span. -/
theorem test_witness_engine :
    0 < (0x7FFFFFFF#32).toInt ∧ 0 < (1#32).toInt ∧ spanOf 14744#14 = 1 ∧ spanOf 14746#14 = -1 ∧ spanOf 16383#14 < 0
      ∧ (14745#14).toNat = 14745 ∧ (14744#14).toNat ≠ 14745 := by decide

theorem test_witness_TransferIsOddAboutTheZero :
    spanOf 1638#14 ≠ 0 ∧ ((1639#14).toNat : Int) - (1638#14).toNat = (1638#14).toNat - ((1637#14).toNat : Int) := by decide

theorem test_witness_ConstructFollowsItsRule :
    (atInst inst []).block = .constructed inst ∧ State.reset.block = .unconstructed ∧ (0x80000000#32).toInt ≤ 0
      ∧ (0#32).toInt ≤ 0 ∧ 0 < (1#32).toInt := by decide

theorem test_witness_ConstructFollowsItsRule_reads :
    readsWord ({ State.reset with bus := ⟨[reading 7#3 0x39990000#32], []⟩ } : State).bus 0x39990000#32
      ∧ readFails ({ State.reset with bus := ⟨[reading 0#3 0#32], []⟩ } : State).bus (.shortRead 0#2) :=
  ⟨⟨_, rfl, rfl, by decide, rfl⟩, ⟨_, rfl, .inr ⟨rfl, by decide, rfl⟩⟩⟩

theorem test_witness_FailedConstructionLeavesNoInstance :
    (nextOf (exec (.construct 0#8 0#32 true) State.reset)).map (·.responses)
        = some [{ op := 0#3, warn := false, result := .fail .invalidConfiguration }]
      ∧ (nextOf (exec (.construct 0#8 1#32 true) { State.reset with bus := ⟨[failing 1#2], []⟩ })).map (·.responses)
        = some [{ op := 0#3, warn := false, result := .fail (.busError 1#2) }] := by decide

theorem test_witness_DiscardDestroysTheInstance : (atInst inst []).waiting = none := by decide

theorem test_witness_FetchRawFollowsItsRule :
    State.reset.block = .unconstructed
      ∧ (atInst inst [reading 4#3 0x19990000#32]).block = .constructed inst
      ∧ readsWord (atInst inst [reading 4#3 0x19990000#32]).bus 0x19990000#32
      ∧ readFails (atInst inst [failing 3#2]).bus (.busError 3#2) :=
  ⟨rfl, rfl, reads_reading, fails_reading.1⟩

theorem test_witness_GetPressureRawFollowsItsRule :
    (atInst (zeroedAt 14744#14) []).block = .constructed (zeroedAt 14744#14) ∧ (zeroedAt 14744#14).outputMin ≠ 14745#14
      ∧ (atInst (zeroedAt 14745#14) []).block = .constructed (zeroedAt 14745#14)
      ∧ (zeroedAt 14745#14).outputMin = 14745#14 := by decide

theorem test_witness_GetPressureBusFollowsItsRule :
    readsWord (atInst (zeroedAt 14745#14) [reading 4#3 0#32]).bus 0#32
      ∧ readsWord (atInst (zeroedAt 14746#14) [reading 4#3 0#32]).bus 0#32 ∧ (zeroedAt 14746#14).outputMin ≠ 14745#14
      ∧ readFails (atInst (zeroedAt 14745#14) [failing 0#2]).bus (.busError 0#2) :=
  ⟨⟨_, rfl, rfl, by decide, rfl⟩, ⟨_, rfl, rfl, by decide, rfl⟩, by decide, ⟨_, rfl, .inl ⟨rfl, rfl⟩⟩⟩

theorem test_witness_BusPressureIsFetchThenRaw :
    (atInst inst [reading 4#3 0x19990000#32]).block = .constructed inst
      ∧ readsWord (atInst inst [reading 4#3 0x19990000#32]).bus 0x19990000#32 := ⟨rfl, reads_reading⟩

theorem test_witness_GetStatusRawFollowsItsRule :
    (atInst inst []).block = .constructed inst ∧ State.reset.block = .unconstructed := by decide

theorem test_witness_GetStatusBusFollowsItsRule :
    readsWord (atInst inst [reading 4#3 0x19990000#32]).bus 0x19990000#32
      ∧ readFails (atInst inst [reading 3#3 0x19990000#32]).bus (.shortRead 3#2) := ⟨reads_reading, fails_reading.2⟩

theorem test_witness_CalibrateFollowsItsRule :
    (atInst (zeroedAt 16383#14) []).block = .constructed (zeroedAt 16383#14)
      ∧ (zeroedAt 16383#14).outputCounts = some 16383#14 ∧ inst.Inv ∧ inst.outputCounts = none
      ∧ readsWord (atInst inst [reading 4#3 0x19990000#32]).bus 0x19990000#32
      ∧ readFails (atInst inst [failing 3#2]).bus (.busError 3#2) :=
  ⟨rfl, rfl, inst_inv, rfl, reads_reading, fails_reading.1⟩

theorem test_witness_CalibrateFailsOnlyWithItsRead :
    inst.Inv ∧ (zeroedAt 14745#14).Inv ∧ (zeroedAt 14745#14).calibrated = true
      ∧ (nextOf (exec .calibrate (atInst inst [failing 3#2]))).map (·.responses)
        = some [{ op := 6#3, warn := false, result := .fail (.busError 3#2) }] :=
  ⟨inst_inv, zeroedAt_inv, rfl, by decide⟩

theorem test_witness_InstanceCommandsAreRefusedWithoutOne :
    State.reset.block = .unconstructed ∧ (∀ a m b, Instr.calibrate ≠ .construct a m b)
      ∧ (∀ raw, Instr.calibrate ≠ .decodeCounts raw) ∧ (∀ raw, Instr.calibrate ≠ .decodeStatus raw)
      ∧ Instr.calibrate ≠ .discard := by
  simp [State.reset]

theorem test_witness_UnusedOperandBitsAreIgnored :
    (0x1999FFFF#32).extractLsb' 16 16 = (0x19991234#32).extractLsb' 16 16
      ∧ (0xD9990000#32).extractLsb' 16 14 = (0x19990000#32).extractLsb' 16 14
      ∧ (0xC0000000#32).extractLsb' 30 2 = (0xFFFFFFFF#32).extractLsb' 30 2 := by decide

theorem test_witness_OnlyTheNamedCommandsWriteARegister :
    (atInst inst []).block = .constructed inst ∧ (nextOf (exec (.getStatusR 0#32) (atInst inst []))).isSome = true
      ∧ Instr.getStatusR 0#32 ≠ .discard ∧ (nextOf (exec .fetchRaw State.reset)).isSome = true := by decide

theorem test_witness_ValidBitsAreNeverClearedAlone :
    (atInst (zeroedAt 0#14) []).block = .constructed (zeroedAt 0#14)
      ∧ (nextOf (exec .calibrate (atInst (zeroedAt 0#14) []))).isSome = true ∧ Instr.calibrate ≠ .discard := by decide

theorem test_witness_ObservationRegistersSteerNothing :
    ({ inst with calibrated := true, pressure := some 5#48, status := some 3#2 } : Regs).outputCounts = inst.outputCounts
      ∧ ({ inst with calibrated := true, pressure := some 5#48, status := some 3#2 } : Regs) ≠ inst := by decide

theorem test_witness_GetPressureIsIdempotent : (atInst inst []).block = .constructed inst := by decide

theorem test_witness_RecalibrationChangesNothing :
    (nextOf (exec .calibrate (atInst (zeroedAt 14745#14) []))).map (·.responses)
      = some [{ op := 6#3, warn := true, result := .ok 14745#48 }] := by decide

theorem test_witness_CalibratingOnAReadingZeroesIt :
    (0x19990000#32).extractLsb' 16 14 ≠ 14745#14
      ∧ (0xD999FFFF#32).extractLsb' 16 14 = (0x19990000#32).extractLsb' 16 14 ∧ inst.Inv ∧ inst.outputCounts = none
      ∧ readsWord (atInst inst [reading 4#3 0x19990000#32]).bus 0x19990000#32 :=
  ⟨by decide, by decide, inst_inv, rfl, reads_reading⟩

theorem test_witness_DegenerateCalibrationIsWrittenAndFlagged :
    (zeroedAt 14745#14).outputCounts = some 14745#14 ∧ 14745 ≤ (14745#14).toNat ∧ (14744#14).toNat < 14745 := by decide

theorem test_witness_NegativeSpanInvertsTheSlope :
    (atInst (zeroedAt 14746#14) []).block = .constructed (zeroedAt 14746#14)
      ∧ 0 < (zeroedAt 14746#14).maxPressure.toInt ∧ 14745 < (zeroedAt 14746#14).outputMin.toNat
      ∧ ((zeroedAt 14746#14).outputMin.toNat : Int) - 14745 ≤ (zeroedAt 14746#14).maxPressure.toInt
      ∧ ((0x39990000#32).extractLsb' 16 14).toNat < (zeroedAt 14746#14).outputMin.toNat
      ∧ (zeroedAt 14746#14).outputMin.toNat < ((0x399B0000#32).extractLsb' 16 14).toNat := by decide

theorem test_witness_ReadBothUsesOneSample :
    (atInst inst [reading 4#3 0x19990000#32]).waiting = none ∧ inst.outputMin ≠ 14745#14
      ∧ readsWord (atInst inst [reading 4#3 0x19990000#32]).bus 0x19990000#32
      ∧ readFails (atInst inst [failing 3#2]).bus (.busError 3#2)
      ∧ readsWord (atInst (zeroedAt 14745#14) [reading 4#3 0x19990000#32]).bus 0x19990000#32
      ∧ (zeroedAt 14745#14).outputMin = 14745#14 ∧ State.reset.block = .unconstructed
      ∧ nextDraw (atInst inst [.never]).bus = .never :=
  ⟨rfl, by decide, reads_reading, fails_reading.1, ⟨_, rfl, rfl, by decide, rfl⟩, rfl, rfl, rfl⟩

theorem test_witness_DerivedOutputsFollowTheState :
    (atInst (zeroedAt 16383#14) []).block = .constructed (zeroedAt 16383#14)
      ∧ ({ State.reset with waiting := some (.construct 1#8 1#32 true) } : State).block = .unconstructed := by decide

theorem test_witness_PortsShowTheRegisters :
    (atInst inst []).block = .constructed inst ∧ State.reset.block = .unconstructed ∧ State.reset.waiting = none := by decide

end Sys2Proof.Tests
end

section
/-! The derived outputs `span`, `degen` and `bus_claim` as functions of the state (10_state.md R23), and their ports (R24). -/

namespace Sys2Proof.Machine

@[simp] theorem regsOf_unconstructed : regsOf .unconstructed = none := rfl

@[simp] theorem regsOf_constructed (g : Regs) : regsOf (.constructed g) = some g := rfl

@[simp] theorem ports_qSpan (s : State) :
    (ports s).qSpan = (regsOf s.block).map (fun g => BitVec.ofInt 16 (spanOf g.outputMin)) := rfl

@[simp] theorem ports_qDegen (s : State) : (ports s).qDegen = degen s.block := rfl

@[simp] theorem ports_qBusClaim (s : State) : (ports s).qBusClaim = busClaim s := rfl

/-- The range of `span`: the ends are met at the counts 16383 and 0 (R23). -/
theorem spanOf_bounds (omin : Counts) : -1638 ≤ spanOf omin ∧ spanOf omin ≤ 14745 := by
  have hlt := omin.isLt
  rw [spanOf_eq]
  omega

/-- 16 bits hold every span, so the port loses nothing (R23). -/
theorem toInt_ofInt_spanOf (omin : Counts) : (BitVec.ofInt 16 (spanOf omin)).toInt = spanOf omin := by
  obtain ⟨hlo, hhi⟩ := spanOf_bounds omin
  exact BitVec.toInt_ofInt_eq_self (by decide) (by omega) (by omega)

theorem flagged_iff (omin : Counts) : flagged omin = true ↔ 14745 ≤ omin.toNat := decide_eq_true_iff

theorem isConstruct_iff (i : Instr) : isConstruct i = true ↔ ∃ addr maxp autocal, i = .construct addr maxp autocal := by
  cases i <;> simp [isConstruct]

theorem busClaim_of_constructed {s : State} {g : Regs} (h : s.block = .constructed g) : busClaim s = true := by
  simp [busClaim, h]

/-- Without an instance the bus is claimed by a waiting CONSTRUCT and by nothing else (R23). -/
theorem busClaim_iff_of_unconstructed {s : State} (h : s.block = .unconstructed) :
    busClaim s = true ↔ ∃ addr maxp autocal, s.waiting = some (.construct addr maxp autocal) := by
  cases hw : s.waiting with
  | none => simp [busClaim, h, hw]
  | some i => simp [busClaim, h, hw, isConstruct_iff]

end Sys2Proof.Machine

open Sys2Proof Sys2Proof.Machine

/-- Settles O50: an instance claims the bus by itself, without one a waiting CONSTRUCT does; the span fits its port. -/
theorem derivedOutputsFollowTheState : Obligations.DerivedOutputsFollowTheState := by
  refine ⟨fun s g hb => ?_, fun s hb => ?_⟩
  · obtain ⟨hlo, hhi⟩ := spanOf_bounds g.outputMin
    refine ⟨⟨BitVec.ofInt 16 (spanOf g.outputMin), ?_, toInt_ofInt_spanOf g.outputMin⟩, hlo, hhi, ?_, ?_⟩
    · simp [hb]
    · simp [hb, flagged_iff]
    · exact busClaim_of_constructed hb
  · exact ⟨by simp [hb], by simp [hb], busClaim_iff_of_unconstructed hb⟩

end

section
/-! The count and status fields as slices of the raw word (30_encoding.md R61, R62), and the bytes no command sees (R64). -/

namespace Sys2Proof.Machine

/-- A slice of a slice is a slice. -/
theorem extractLsb'_extractLsb'_of_add_le {w start len start' len' : Nat} (x : BitVec w) (h : start' + len' ≤ len) :
    (x.extractLsb' start len).extractLsb' start' len' = x.extractLsb' (start + start') len' := by
  apply BitVec.eq_of_getLsbD_eq
  intro i hi
  simp only [BitVec.getLsbD_extractLsb', hi, show start' + i < len by omega, decide_true, Bool.true_and, Nat.add_assoc]

/-- The count is the slice 29:16 of the word (R62). -/
theorem countsOf_eq_extractLsb' (raw : RawWord) : countsOf raw = raw.extractLsb' 16 14 := by
  apply BitVec.eq_of_getLsbD_eq
  intro i hi
  rw [getLsbD_countsOf raw i hi, BitVec.getLsbD_extractLsb', decide_eq_true hi, Bool.true_and]

/-- The status is the slice 31:30 of the word (R63). -/
theorem statusOf_eq_extractLsb' (raw : RawWord) : statusOf raw = raw.extractLsb' 30 2 := by
  apply BitVec.eq_of_getLsbD_eq
  intro i hi
  rw [getLsbD_statusOf raw i hi, BitVec.getLsbD_extractLsb', decide_eq_true hi, Bool.true_and]

/-- The mask, shift and OR of the source in the numbers of the two bytes (R62): cutting to 14 bits loses nothing. -/
theorem toNat_countsOf (raw : RawWord) :
    (countsOf raw).toNat = ((byte0 raw).toNat &&& 0x3F) <<< 8 ||| (byte1 raw).toNat := by
  have hmask : (byte0 raw).toNat &&& 0x3F ≤ 0x3F := Nat.and_le_right
  have hbyte1 : (byte1 raw).toNat < 2 ^ 8 := (byte1 raw).isLt
  have hshift : ((byte0 raw).toNat &&& 0x3F) <<< 8 < 2 ^ 14 := by
    rw [Nat.shiftLeft_eq]
    omega
  simp only [countsOf, BitVec.toNat_or, BitVec.toNat_shiftLeft, BitVec.toNat_setWidth, BitVec.toNat_and,
    show (0x3F#8).toNat = 0x3F from rfl]
  rw [Nat.mod_eq_of_lt (a := _ &&& _) (by omega), Nat.mod_eq_of_lt hshift, Nat.mod_eq_of_lt (by omega)]

/-- Every count is the count of the word with status 0 and zero bytes 2 and 3. -/
theorem countsOf_field (c : Counts) : countsOf (0#2 ++ (c ++ 0#16)) = c := by
  rw [countsOf_eq_extractLsb', BitVec.extractLsb'_append_eq_of_add_le (by decide), BitVec.extractLsb'_append_eq_left]

/-- Words that agree in bytes 0 and 1 agree in every slice of these two bytes. -/
theorem extractLsb'_congr_of_bytes {raw raw' : RawWord} (h : raw.extractLsb' 16 16 = raw'.extractLsb' 16 16)
    (start len : Nat) (hle : start + len ≤ 16) :
    raw.extractLsb' (16 + start) len = raw'.extractLsb' (16 + start) len := by
  rw [← extractLsb'_extractLsb'_of_add_le raw hle, h, extractLsb'_extractLsb'_of_add_le raw' hle]

/-- DECODE_COUNTS sees its operand through the count alone (R121). -/
theorem exec_decodeCounts_congr {raw raw' : RawWord} (h : countsOf raw = countsOf raw') (s : State) :
    exec (.decodeCounts raw) s = exec (.decodeCounts raw') s := by
  simp only [exec, execDecodeCounts, opcode, h]

/-- DECODE_STATUS sees its operand through the status alone (R123). -/
theorem exec_decodeStatus_congr {raw raw' : RawWord} (h : statusOf raw = statusOf raw') (s : State) :
    exec (.decodeStatus raw) s = exec (.decodeStatus raw') s := by
  simp only [exec, execDecodeStatus, opcode, h]

/-- Commands of one opcode with one body differ at most in the command a wait holds, so where the body never hangs they end
alike (R46, R191). -/
theorem onConstructed_congr (i i' : Instr) (hop : opcode i = opcode i') (body : Work → Res Value)
    (hbody : ∀ w w', body w ≠ .hang w') (s : State) : onConstructed i body s = onConstructed i' body s := by
  cases hb : s.block with
  | unconstructed => rw [onConstructed_unconstructed i body s hb, onConstructed_unconstructed i' body s hb, hop]
  | constructed g =>
    rw [onConstructed_constructed i body s g hb, onConstructed_constructed i' body s g hb]
    cases hr : body { regs := g, bus := s.bus } with
    | ok v w => rw [finish_ok, finish_ok, hop]
    | raise f w => rw [finish_raise, finish_raise, hop]
    | hang w => exact absurd hr (hbody _ w)

theorem getPressure_some (raw : RawWord) (w : Work) :
    getPressure (some raw) w = (storeReading raw w).bind fun cp w' => .ok cp.2 w' := rfl

theorem statusValue_some (raw : RawWord) (w : Work) :
    statusValue (some raw) w = .ok ((statusOf raw).setWidth 48) { w with regs := w.regs.setStatus (statusOf raw) } := rfl

/-- With its reading at hand `GetPressure` does not wait for the bus (R140). -/
theorem getPressure_some_ne_hang (raw : RawWord) (w w' : Work) : getPressure (some raw) w ≠ .hang w' := by
  rw [getPressure_some]
  obtain ⟨_, p, _, hr⟩ | ⟨_, hr⟩ := storeReading_cases raw w
  · simp [hr]
  · simp [hr]

theorem statusValue_some_ne_hang (raw : RawWord) (w w' : Work) : statusValue (some raw) w ≠ .hang w' := by
  simp [statusValue_some]

theorem getPressure_some_congr {raw raw' : RawWord} (h : countsOf raw = countsOf raw') :
    getPressure (some raw) = getPressure (some raw') := by
  funext w
  simp only [getPressure_some, storeReading, h]

theorem statusValue_some_congr {raw raw' : RawWord} (h : statusOf raw = statusOf raw') :
    statusValue (some raw) = statusValue (some raw') := by
  funext w
  simp only [statusValue_some, h]

/-- GET_PRESSURE.R sees its operand through the count alone (R141). -/
theorem exec_getPressureR_congr {raw raw' : RawWord} (h : countsOf raw = countsOf raw') (s : State) :
    exec (.getPressureR raw) s = exec (.getPressureR raw') s := by
  simp only [exec, execGetPressureR, getPressure_some_congr h]
  exact congrArg _ (onConstructed_congr (.getPressureR raw) (.getPressureR raw') rfl _ (getPressure_some_ne_hang raw') s)

/-- GET_STATUS.R sees its operand through the status alone (R146). -/
theorem exec_getStatusR_congr {raw raw' : RawWord} (h : statusOf raw = statusOf raw') (s : State) :
    exec (.getStatusR raw) s = exec (.getStatusR raw') s := by
  simp only [exec, execGetStatusR, statusValue_some_congr h]
  exact congrArg _ (onConstructed_congr (.getStatusR raw) (.getStatusR raw') rfl _ (statusValue_some_ne_hang raw') s)

end Sys2Proof.Machine

open Sys2Proof Sys2Proof.Machine

/-- Settles O16: the number, the two bytes' bits side by side and the slice 29:16 are one value; each count has its word. -/
theorem countsAreTheFourteenBitField : Obligations.CountsAreTheFourteenBitField := by
  refine ⟨fun raw => ⟨toNat_countsOf raw, ?_, countsOf_eq_extractLsb' raw⟩, fun c => ⟨_, countsOf_field c⟩⟩
  have hbytes : raw.extractLsb' (16 + 8) 6 ++ raw.extractLsb' 16 8 = raw.extractLsb' 16 (6 + 8) :=
    BitVec.extractLsb'_append_extractLsb'_eq_extractLsb' rfl
  exact (countsOf_eq_extractLsb' raw).trans hbytes.symm

/-- Settles O39: each command sees its raw operand through the count or the status alone, both slices of bytes 0 and 1. -/
theorem unusedOperandBitsAreIgnored : Obligations.UnusedOperandBitsAreIgnored := by
  intro s raw raw'
  simp only [← countsOf_eq_extractLsb', ← statusOf_eq_extractLsb']
  refine ⟨fun h => ?_, fun h => exec_getPressureR_congr h s, fun h => exec_getStatusR_congr h s⟩
  have hcounts : countsOf raw = countsOf raw' := by
    simpa only [countsOf_eq_extractLsb'] using extractLsb'_congr_of_bytes h 0 14 (by decide)
  have hstatus : statusOf raw = statusOf raw' := by
    simpa only [statusOf_eq_extractLsb'] using extractLsb'_congr_of_bytes h 14 2 (by decide)
  exact ⟨exec_decodeCounts_congr hcounts s, exec_decodeStatus_congr hstatus s, exec_getPressureR_congr hcounts s,
    exec_getStatusR_congr hstatus s⟩

end

section
/-! The illegal command words (30_encoding.md R74): the list, read on the fields, against the decoder, and their answer
(60_exceptions.md R188). -/

namespace Sys2Proof

/-! ## The fields of a word as numbers (R71) -/

theorem unpack_op_toNat (w : CmdWord) : (unpack w).op.toNat = w.toNat / 2 ^ 41 := by
  have hlt := w.isLt
  simp only [unpack, BitVec.extractLsb'_toNat, Nat.shiftRight_eq_div_pow]
  omega

theorem unpack_f_iff (w : CmdWord) : (unpack w).f = true ↔ w.toNat / 2 ^ 40 % 2 = 1 := by
  simp only [unpack, BitVec.getLsbD, Nat.testBit_eq_decide_div_mod_eq, decide_eq_true_iff]

theorem unpack_hi_toNat (w : CmdWord) : (unpack w).hi.toNat = w.toNat / 2 ^ 32 % 2 ^ 8 := by
  simp only [unpack, BitVec.extractLsb'_toNat, Nat.shiftRight_eq_div_pow]

theorem unpack_lo_toNat (w : CmdWord) : (unpack w).lo.toNat = w.toNat % 2 ^ 32 := by
  simp only [unpack, BitVec.extractLsb'_toNat, Nat.shiftRight_zero]

/-! ## The list against the decoder -/

/-- The list of R74 on the fields of a word. -/
def CmdFields.Listed (x : CmdFields) : Prop :=
  ((x.op = 1#3 ∨ x.op = 6#3 ∨ x.op = 7#3) ∧ (x.f = true ∨ x.hi ≠ 0#8 ∨ x.lo ≠ 0#32))
    ∨ ((x.op = 2#3 ∨ x.op = 3#3) ∧ (x.f = false ∨ x.hi ≠ 0#8))
    ∨ ((x.op = 4#3 ∨ x.op = 5#3) ∧ (x.hi ≠ 0#8 ∨ (x.f = false ∧ x.lo ≠ 0#32)))

/-- The model's list, on the word as a number, is the list on its fields. -/
theorem illegal_iff_listed (w : CmdWord) : w.illegal = true ↔ (unpack w).Listed := by
  have hf0 : (unpack w).f = false ↔ w.toNat / 2 ^ 40 % 2 = 0 := by
    rw [← Bool.not_eq_true, unpack_f_iff]
    omega
  simp only [CmdFields.Listed, CmdWord.illegal, ← BitVec.toNat_inj, ne_eq, unpack_op_toNat, unpack_f_iff, hf0,
    unpack_hi_toNat, unpack_lo_toNat, BitVec.toNat_ofNat, Bool.or_eq_true, Bool.and_eq_true, decide_eq_true_iff,
    Nat.reducePow, Nat.reduceMod, or_assoc]

theorem noOperand_illegal_iff (x : CmdFields) (i : Instr) :
    (∃ why, noOperand x i = .illegal why) ↔ x.f = true ∨ x.hi ≠ 0#8 ∨ x.lo ≠ 0#32 := by
  unfold noOperand
  split_ifs <;> simp_all

theorem rawOperand_illegal_iff (x : CmdFields) (i : RawWord → Instr) :
    (∃ why, rawOperand x i = .illegal why) ↔ x.f = false ∨ x.hi ≠ 0#8 := by
  unfold rawOperand
  split_ifs <;> simp_all

theorem rawOrBus_illegal_iff (x : CmdFields) (raw : RawWord → Instr) (bus : Instr) :
    (∃ why, rawOrBus x raw bus = .illegal why) ↔ x.hi ≠ 0#8 ∨ (x.f = false ∧ x.lo ≠ 0#32) := by
  unfold rawOrBus
  split_ifs <;> simp_all

/-- Opcode by opcode, the decoder rejects what the list names (R74). -/
theorem decodeFields_illegal_iff (x : CmdFields) : (∃ why, decodeFields x = .illegal why) ↔ x.Listed := by
  rcases opBits_cases x.op with h | h | h | h | h | h | h | h <;>
    simp [decodeFields, CmdFields.Listed, h, noOperand_illegal_iff, rawOperand_illegal_iff, rawOrBus_illegal_iff]

theorem decode_illegal_iff (w : CmdWord) : (∃ why, decode w = .illegal why) ↔ w.illegal = true :=
  (decodeFields_illegal_iff (unpack w)).trans (illegal_iff_listed w).symm

/-- CONSTRUCT has no illegal encoding (R74). -/
theorem illegal_eq_false_of_op_zero (w : CmdWord) (h : (unpack w).op = 0#3) : w.illegal = false := by
  rw [← Bool.not_eq_true, illegal_iff_listed]
  simp [CmdFields.Listed, h]

/-! ## Words with a raw operand -/

/-- Writing a raw operand into a word whose `lo` is 0 (R72). -/
theorem pack_or_raw (x : CmdFields) (raw : RawWord) (h : x.lo = 0#32) :
    pack x ||| raw.setWidth 44 = pack { x with lo := raw } := by
  apply BitVec.eq_of_getLsbD_eq
  intro i hi
  simp only [pack, h, BitVec.getLsbD_or, BitVec.getLsbD_append, BitVec.getLsbD_setWidth, hi]
  rcases Nat.lt_or_ge i 32 with hlo | hlo
  · simp [hlo]
  · simp [show ¬ i < 32 by omega, BitVec.getLsbD_of_ge raw i hlo]

/-- A raw operand is never illegal: with `f` 1 and `hi` 0 no command with a raw form rejects the word (R74). -/
theorem illegal_pack_raw (op : OpBits) (raw : RawWord) (h : op = 2#3 ∨ op = 3#3 ∨ op = 4#3 ∨ op = 5#3) :
    CmdWord.illegal (pack { op := op, f := true, hi := 0#8, lo := 0#32 } ||| raw.setWidth 44) = false := by
  rw [pack_or_raw _ raw rfl, ← Bool.not_eq_true, illegal_iff_listed, unpack_pack]
  rcases h with rfl | rfl | rfl | rfl <;> simp [CmdFields.Listed]

end Sys2Proof

namespace Sys2Proof.Machine

/-- A word the list names is answered by `illegalCommand`, before any other test (R74, R190). -/
theorem accept_of_illegal {w : CmdWord} (h : w.illegal = true) (s : State) : accept w s = .next (illegalCommand w s) := by
  obtain ⟨why, hdecode⟩ := (decode_illegal_iff w).2 h
  simp only [accept, hdecode]

/-- An idle block takes the command word presented (R84). -/
theorem step_of_command {s : State} {w : CmdWord} {rest : List Input} (hwaiting : s.waiting = none)
    (hinputs : s.inputs = .command w :: rest) : step s = accept w { s with inputs := rest } := by
  simp [step, hinputs, cmdReady, hwaiting]

/-- The answer to an illegal word in the statements' own terms (R188). -/
theorem illegalCommand_eq_answered (w : CmdWord) (s : State) :
    illegalCommand w s = s.answered (w.extractLsb' 41 3) (degen s.block) (.fail .illegalCommand) := rfl

end Sys2Proof.Machine

open Sys2Proof Sys2Proof.Machine

/-- Settles O3: the decoder rejects opcode by opcode what the list names, and the answer to a rejected word is a response. -/
theorem illegalWordsAreTheListedOnes : Obligations.IllegalWordsAreTheListedOnes := by
  refine ⟨decode_illegal_iff, ?_, illegal_eq_false_of_op_zero, fun raw => ⟨?_, ?_, ?_, ?_⟩⟩
  · intro s w rest hwaiting hinputs hillegal
    rw [step_of_command hwaiting hinputs, accept_of_illegal hillegal, illegalCommand_eq_answered]
  · exact illegal_pack_raw 2#3 raw (by decide)
  · exact illegal_pack_raw 3#3 raw (by decide)
  · exact illegal_pack_raw 4#3 raw (by decide)
  · exact illegal_pack_raw 5#3 raw (by decide)

end

section
/-! The lifecycle commands (40_lifecycle.md): how CONSTRUCT ends past each of its checks (R92, R93, R95), what a failed one
leaves (R94), and DISCARD (R96). -/

namespace Sys2Proof.Machine

@[simp] theorem State.answered_block (s : State) (op : OpBits) (warn : Bool) (r : Result) :
    (s.answered op warn r).block = s.block := rfl
@[simp] theorem State.answered_waiting (s : State) (op : OpBits) (warn : Bool) (r : Result) :
    (s.answered op warn r).waiting = s.waiting := rfl
@[simp] theorem State.answered_bus (s : State) (op : OpBits) (warn : Bool) (r : Result) :
    (s.answered op warn r).bus = s.bus := rfl
@[simp] theorem State.answered_responses (s : State) (op : OpBits) (warn : Bool) (r : Result) :
    (s.answered op warn r).responses = s.responses ++ [{ op := op, warn := warn, result := r }] := rfl

@[simp] theorem State.withRead_block (s : State) (addr : BusAddr) : (s.withRead addr).block = s.block := rfl
@[simp] theorem State.withRead_waiting (s : State) (addr : BusAddr) : (s.withRead addr).waiting = s.waiting := rfl
@[simp] theorem State.withRead_bus (s : State) (addr : BusAddr) : (s.withRead addr).bus = s.bus.afterRead addr := rfl
@[simp] theorem State.withRead_responses (s : State) (addr : BusAddr) : (s.withRead addr).responses = s.responses := rfl

/-- A response in the statements' own terms: `warn` is the level of `degen` (R80). -/
theorem respond_eq_answered (op : OpBits) (r : Result) (s : State) :
    respond op r s = s.answered op (degen s.block) r := rfl

/-- Without an instance and with no command in progress nothing claims the bus (R23). -/
theorem busClaim_of_unconstructed_idle {s : State} (hblock : s.block = .unconstructed) (hwaiting : s.waiting = none) :
    busClaim s = false := by
  simp [busClaim, hblock, hwaiting]

theorem cmdReady_of_idle {s : State} (hwaiting : s.waiting = none) : cmdReady s = true := by
  simp [cmdReady, hwaiting]

/-- A failed read is never reported as InvalidConfiguration (R45). -/
theorem readFails_ne_invalidConfiguration {b : Bus} {f : Failure} (h : readFails b f) : f ≠ .invalidConfiguration := by
  obtain ⟨rsp, _, ⟨_, rfl⟩ | ⟨_, _, rfl⟩⟩ := h <;> simp

/-! ## `Calibrate` with no counts cached (R161): what its one bus read makes of it -/

/-- The registers after a reading is stored and its count made the zero: the pressure is against the old zero (R161). -/
def Regs.calibratedAt (g : Regs) (c : Counts) : Regs :=
  { g with
    outputMin := c
    calibrated := true
    outputCounts := some c
    pressure := some (pressureOf c g.outputMin g.maxPressure) }

theorem takeReading_none (w : Work) : takeReading none w = (fetchRaw w).bind storeReading := rfl

/-- Where the span is not 0 the reading is stored with its pressure (R140). -/
theorem storeReading_of_ne (raw : RawWord) (g : Regs) (b : Bus) (h : g.outputMin ≠ 14745#14) :
    storeReading raw { regs := g, bus := b }
      = .ok (countsOf raw, pressureOf (countsOf raw) g.outputMin g.maxPressure)
          { regs := (g.setCounts (countsOf raw)).setPressure (pressureOf (countsOf raw) g.outputMin g.maxPressure)
            bus := b } := by
  simp [storeReading, transfer_eq_pressureOf _ _ _ h]

theorem calibrate_of_readsWord {g : Regs} {b : Bus} {raw : RawWord} (hcounts : g.outputCounts = none)
    (hmin : g.outputMin ≠ 14745#14) (hread : readsWord b raw) :
    calibrate { regs := g, bus := b }
      = .ok (raw.extractLsb' 16 14)
          { regs := g.calibratedAt (raw.extractLsb' 16 14), bus := b.afterRead g.busAddr } := by
  rw [← countsOf_eq_extractLsb', calibrate, currentCounts_none _ hcounts, takeReading_none,
    fetchRaw_readsWord g b raw hread, Res.bind_ok, storeReading_of_ne raw g _ hmin]
  rfl

theorem calibrate_of_readFails {g : Regs} {b : Bus} {f : Failure} (hcounts : g.outputCounts = none)
    (hread : readFails b f) :
    calibrate { regs := g, bus := b } = .raise f { regs := g, bus := b.afterRead g.busAddr } := by
  simp [calibrate, currentCounts_none { regs := g, bus := b } hcounts, takeReading_none, fetchRaw_readFails g b f hread]

theorem calibrate_of_never {g : Regs} {b : Bus} (hcounts : g.outputCounts = none) (hdraw : nextDraw b = .never) :
    calibrate { regs := g, bus := b } = .hang { regs := g, bus := b.afterRead g.busAddr } := by
  simp [calibrate, currentCounts_none { regs := g, bus := b } hcounts, takeReading_none, fetchRaw_hangs g b hdraw]

/-! ## CONSTRUCT, check by check (R93) -/

/-- The lifecycle check comes first, whatever the operands (R95). -/
theorem exec_construct_of_constructed {s : State} {g : Regs} (h : s.block = .constructed g) (addr : BusAddr)
    (maxp : RatedPressure) (autocal : Bool) :
    exec (.construct addr maxp autocal) s = .next (s.answered 0#3 (flagged g.outputMin) (.fail .alreadyConstructed)) := by
  simp [exec, execConstruct, h, opcode, respond_eq_answered]

/-- The configuration check comes before every write and the bus read (R92). -/
theorem exec_construct_of_nonpos {s : State} (h : s.block = .unconstructed) (addr : BusAddr) {maxp : RatedPressure}
    (hmaxp : maxp.toInt ≤ 0) (autocal : Bool) :
    exec (.construct addr maxp autocal) s = .next (s.answered 0#3 false (.fail .invalidConfiguration)) := by
  simp [exec, execConstruct, h, hmaxp, opcode, respond_eq_answered]

theorem exec_construct_of_pos {s : State} (h : s.block = .unconstructed) (addr : BusAddr) {maxp : RatedPressure}
    (hmaxp : 0 < maxp.toInt) (autocal : Bool) :
    exec (.construct addr maxp autocal) s = .next (construct (.construct addr maxp autocal) addr maxp autocal s) := by
  simp [exec, execConstruct, h, hmaxp]

/-- Without auto-calibration the construction values stand (R93). -/
theorem exec_construct_plain {s : State} (h : s.block = .unconstructed) (addr : BusAddr) {maxp : RatedPressure}
    (hmaxp : 0 < maxp.toInt) :
    exec (.construct addr maxp false) s
      = .next ((s.withRegs ⟨addr, maxp, 1638#14, false, none, none, none⟩).answered 0#3 false (.ok 0#48)) :=
  exec_construct_of_pos h addr hmaxp false

/-- With it, the construction ends as its one `Calibrate` on the construction values does (R93, R94). -/
theorem exec_construct_autocal {s : State} (h : s.block = .unconstructed) (addr : BusAddr) {maxp : RatedPressure}
    (hmaxp : 0 < maxp.toInt) :
    exec (.construct addr maxp true) s
      = .next (finishConstruct (.construct addr maxp true) s
          (calibrate { regs := freshRegs addr maxp, bus := s.bus })) :=
  exec_construct_of_pos h addr hmaxp true

theorem exec_construct_autocal_of_readsWord {s : State} (h : s.block = .unconstructed) (addr : BusAddr)
    {maxp : RatedPressure} (hmaxp : 0 < maxp.toInt) {raw : RawWord} (hread : readsWord s.bus raw) :
    exec (.construct addr maxp true) s
      = .next (((s.withRead addr).withRegs ((freshRegs addr maxp).calibratedAt (raw.extractLsb' 16 14))).answered
          0#3 (flagged (raw.extractLsb' 16 14)) (.ok 0#48)) := by
  have hmin : (freshRegs addr maxp).outputMin ≠ 14745#14 := by simp [freshRegs, Config.outputMinDefault]
  rw [exec_construct_autocal h addr hmaxp, calibrate_of_readsWord rfl hmin hread]
  rfl

/-- The half-built instance is dropped: only the bus has changed (R94). -/
theorem exec_construct_autocal_of_readFails {s : State} (h : s.block = .unconstructed) (addr : BusAddr)
    {maxp : RatedPressure} (hmaxp : 0 < maxp.toInt) {f : Failure} (hread : readFails s.bus f) :
    exec (.construct addr maxp true) s = .next ((s.withRead addr).answered 0#3 false (.fail f)) := by
  have hdrop : s.dropInstance (s.bus.afterRead addr) = s.withRead addr := by simp [State.dropInstance, State.withRead, h]
  rw [exec_construct_autocal h addr hmaxp, calibrate_of_readFails rfl hread, finishConstruct_raise,
    show (freshRegs addr maxp).busAddr = addr from rfl, hdrop, respond_eq_answered, State.withRead_block, h]
  rfl

theorem exec_construct_autocal_of_never {s : State} (h : s.block = .unconstructed) (addr : BusAddr)
    {maxp : RatedPressure} (hmaxp : 0 < maxp.toInt) (hdraw : nextDraw s.bus = .never) :
    exec (.construct addr maxp true) s = .next { s.withRead addr with waiting := some (.construct addr maxp true) } := by
  rw [exec_construct_autocal h addr hmaxp, calibrate_of_never rfl hdraw]
  rfl

/-- Where a CONSTRUCT fails without an instance: at its configuration check, or in its bus read (R94). -/
theorem exec_construct_fails {s t : State} {addr : BusAddr} {maxp : RatedPressure} {autocal warn : Bool} {f : Failure}
    (h : s.block = .unconstructed) (hexec : exec (.construct addr maxp autocal) s = .next t)
    (hresp : t.responses = s.responses ++ [{ op := 0#3, warn := warn, result := .fail f }]) :
    (f = .invalidConfiguration ∧ maxp.toInt ≤ 0 ∧ t = s.answered 0#3 false (.fail f))
      ∨ (readFails s.bus f ∧ t = (s.withRead addr).answered 0#3 false (.fail f)) := by
  rcases Int.lt_or_le 0 maxp.toInt with hpos | hnonpos
  · cases autocal with
    | false =>
      rw [exec_construct_plain h addr hpos] at hexec
      cases hexec
      simp [State.withRegs] at hresp
    | true =>
      rcases nextDraw_cases s.bus with hdraw | ⟨raw, hread⟩ | ⟨f', hread⟩
      · rw [exec_construct_autocal_of_never h addr hpos hdraw] at hexec
        cases hexec
        simp at hresp
      · rw [exec_construct_autocal_of_readsWord h addr hpos hread] at hexec
        cases hexec
        simp [State.withRegs] at hresp
      · rw [exec_construct_autocal_of_readFails h addr hpos hread] at hexec
        cases hexec
        obtain ⟨-, rfl⟩ : false = warn ∧ f' = f := by simpa using hresp
        exact .inr ⟨hread, rfl⟩
  · rw [exec_construct_of_nonpos h addr hnonpos] at hexec
    cases hexec
    obtain ⟨-, rfl⟩ : false = warn ∧ Failure.invalidConfiguration = f := by simpa using hresp
    exact .inl ⟨rfl, hnonpos, rfl⟩

/-! ## DISCARD (R96) -/

theorem exec_discard (s : State) :
    exec .discard s = .next ({ s with block := .unconstructed }.answered 7#3 false (.ok 0#48)) := rfl

end Sys2Proof.Machine

open Sys2Proof Sys2Proof.Machine

/-- Settles O26: one clause for each way CONSTRUCT ends; the fields of its word stand side by side. -/
theorem constructFollowsItsRule : Obligations.ConstructFollowsItsRule := by
  intro s addr maxp
  refine ⟨fun autocal => rfl, fun g autocal hb => ?_, fun autocal hb hmaxp => ?_, fun hb hmaxp => ?_,
    fun raw hb hmaxp hread => ?_, fun f hb hmaxp hread => ?_⟩
  · exact exec_construct_of_constructed hb addr maxp autocal
  · exact exec_construct_of_nonpos hb addr hmaxp autocal
  · exact exec_construct_plain hb addr hmaxp
  · exact exec_construct_autocal_of_readsWord hb addr hmaxp hread
  · exact exec_construct_autocal_of_readFails hb addr hmaxp hread

/-- Settles O27: the failure is the configuration check's or the read's, and after either the block is idle without an
instance. -/
theorem failedConstructionLeavesNoInstance : Obligations.FailedConstructionLeavesNoInstance := by
  intro s t addr maxp autocal warn f hb hwaiting hexec hresp
  have hcause := exec_construct_fails hb hexec hresp
  have hblock : t.block = .unconstructed := by obtain ⟨_, _, rfl⟩ | ⟨_, rfl⟩ := hcause <;> exact hb
  have hidle : t.waiting = none := by obtain ⟨_, _, rfl⟩ | ⟨_, rfl⟩ := hcause <;> exact hwaiting
  refine ⟨hblock, busClaim_of_unconstructed_idle hblock hidle, by simp [hblock], cmdReady_of_idle hidle, ?_, ?_, ?_⟩
  · intro hf
    obtain ⟨_, hmaxp, rfl⟩ | ⟨hread, _⟩ := hcause
    · exact ⟨hmaxp, rfl⟩
    · exact absurd hf (readFails_ne_invalidConfiguration hread)
  · intro hf
    obtain ⟨hf', _, _⟩ | ⟨hread, rfl⟩ := hcause
    · exact absurd hf' hf
    · exact ⟨hread, rfl⟩
  · exact fun addr' maxp' hmaxp' => ⟨_, exec_construct_plain hblock addr' hmaxp', rfl⟩

/-- Settles O28: DISCARD has one outcome, which has no instance. -/
theorem discardDestroysTheInstance : Obligations.DiscardDestroysTheInstance := by
  refine ⟨by decide, exec_discard, fun s t hwaiting hexec => ?_, by decide⟩
  rw [exec_discard] at hexec
  cases hexec
  exact ⟨rfl, busClaim_of_unconstructed_idle rfl hwaiting⟩

end

section
/-! The bus reads (41_bus_fetch.md): FETCH_RAW (R112), and the bus every sub-operation and every command leaves (R113). -/

namespace Sys2Proof.Machine

/-! ## FETCH_RAW (R112) -/

theorem exec_fetchRaw_of_unconstructed {s : State} (h : s.block = .unconstructed) :
    exec .fetchRaw s = .next (s.answered 1#3 false (.fail .notConstructed)) := by
  simp [exec, execFetchRaw, onConstructed_unconstructed _ _ s h, h, opcode, respond_eq_answered]

/-- On an instance FETCH_RAW ends as its one `FetchRaw` does. -/
theorem exec_fetchRaw_of_constructed {s : State} {g : Regs} (h : s.block = .constructed g) :
    exec .fetchRaw s
      = .next (finish .fetchRaw s
          ((fetchRaw { regs := g, bus := s.bus }).bind fun raw w => .ok (raw.setWidth 48) w)) := by
  rw [exec, execFetchRaw, onConstructed_constructed _ _ s g h]

/-- Putting back the registers an instance has changes no more than the bus. -/
theorem setWork_afterRead {s : State} {g : Regs} (h : s.block = .constructed g) :
    s.setWork { regs := g, bus := s.bus.afterRead g.busAddr } = s.withRead g.busAddr := by
  simp [State.setWork, State.withRead, h]

theorem exec_fetchRaw_of_readsWord {s : State} {g : Regs} (h : s.block = .constructed g) {raw : RawWord}
    (hread : readsWord s.bus raw) :
    exec .fetchRaw s
      = .next ((s.withRead g.busAddr).answered 1#3 (flagged g.outputMin) (.ok (raw.setWidth 48))) := by
  rw [exec_fetchRaw_of_constructed h, fetchRaw_readsWord g s.bus raw hread, Res.bind_ok, finish_ok, setWork_afterRead h,
    respond_eq_answered, State.withRead_block, h, degen_constructed, opcode]

theorem exec_fetchRaw_of_readFails {s : State} {g : Regs} (h : s.block = .constructed g) {f : Failure}
    (hread : readFails s.bus f) :
    exec .fetchRaw s = .next ((s.withRead g.busAddr).answered 1#3 (flagged g.outputMin) (.fail f)) := by
  rw [exec_fetchRaw_of_constructed h, fetchRaw_readFails g s.bus f hread, Res.bind_raise, finish_raise,
    setWork_afterRead h, respond_eq_answered, State.withRead_block, h, degen_constructed, opcode]

/-! ## The bus a sub-operation leaves -/

/-- The bus a sub-operation leaves, however it ends. -/
def Res.bus {α : Type} : Res α → Bus
  | .ok _ w => w.bus
  | .raise _ w => w.bus
  | .hang w => w.bus

@[simp] theorem Res.bus_ok {α : Type} (v : α) (w : Work) : (Res.ok v w).bus = w.bus := rfl
@[simp] theorem Res.bus_raise {α : Type} (f : Failure) (w : Work) : (Res.raise f w : Res α).bus = w.bus := rfl
@[simp] theorem Res.bus_hang {α : Type} (w : Work) : (Res.hang w : Res α).bus = w.bus := rfl

/-- A continuation that performs no bus read leaves the bus as the sub-operation before it did. -/
theorem Res.bus_bind {α β : Type} (r : Res α) {k : α → Work → Res β} (hk : ∀ v w, (k v w).bus = w.bus) :
    (r.bind k).bus = r.bus := by
  cases r with
  | ok v w => exact hk v w
  | raise f w => rfl
  | hang w => rfl

/-- `FetchRaw` performs exactly one bus read, whatever the answer (R111). -/
theorem fetchRaw_bus (w : Work) : (fetchRaw w).bus = w.bus.afterRead w.regs.busAddr := by
  obtain ⟨_, h⟩ | ⟨_, _, _, h⟩ | ⟨_, _, _, _, h⟩ | ⟨_, _, _, _, h⟩ := fetchRaw_cases w <;> rw [h] <;> rfl

theorem storeReading_bus (raw : RawWord) (w : Work) : (storeReading raw w).bus = w.bus := by
  obtain ⟨_, _, _, h⟩ | ⟨_, h⟩ := storeReading_cases raw w <;> rw [h] <;> rfl

/-- What follows the raw reading reads the bus no more (R140). -/
theorem getPressure_bus (r : Option RawWord) (w : Work) : (getPressure r w).bus = (rawOrFetch r w).bus :=
  (Res.bus_bind _ fun _ _ => rfl).trans (Res.bus_bind _ storeReading_bus)

/-- What follows the raw reading reads the bus no more (R145). -/
theorem statusValue_bus (r : Option RawWord) (w : Work) : (statusValue r w).bus = (rawOrFetch r w).bus :=
  (Res.bus_bind _ fun _ _ => rfl).trans (Res.bus_bind _ fun _ _ => rfl)

theorem calibrate_bus (w : Work) : (calibrate w).bus = (currentCounts w).bus := Res.bus_bind _ fun _ _ => rfl

/-- A cached count is taken without a bus read (R162). -/
theorem calibrate_bus_of_some {w : Work} {c : Counts} (h : w.regs.outputCounts = some c) :
    (calibrate w).bus = w.bus := by
  rw [calibrate_bus, currentCounts_some w c h, Res.bus_ok]

/-- With no count cached `Calibrate` performs the one bus read of its `GetPressure` (R161). -/
theorem calibrate_bus_of_none {w : Work} (h : w.regs.outputCounts = none) :
    (calibrate w).bus = w.bus.afterRead w.regs.busAddr := by
  rw [calibrate_bus, currentCounts_none w h, Res.bus_bind _ fun _ _ => rfl, takeReading_none,
    Res.bus_bind _ storeReading_bus, fetchRaw_bus]

/-! ## The bus a command leaves (R113) -/

theorem finish_bus (i : Instr) (s : State) (r : Res Value) : (finish i s r).bus = r.bus := by
  cases r <;> rfl

theorem finishConstruct_bus (i : Instr) (s : State) (r : Res Counts) : (finishConstruct i s r).bus = r.bus := by
  cases r <;> rfl

/-- The bus after at most one block read: at the address named, if one is. -/
def Bus.afterReadIf (b : Bus) : Option BusAddr → Bus
  | none => b
  | some a => b.afterRead a

@[simp] theorem Bus.afterReadIf_none (b : Bus) : b.afterReadIf none = b := rfl
@[simp] theorem Bus.afterReadIf_some (b : Bus) (a : BusAddr) : b.afterReadIf (some a) = b.afterRead a := rfl

/-- A command that needs an instance reads the bus as R113 says where its body does so and it is refused without a read. -/
theorem onConstructed_bus {i : Instr} {body : Work → Res Value} {s : State}
    (hrefused : busReadOf i .unconstructed = none)
    (hbody : ∀ g, (body { regs := g, bus := s.bus }).bus = s.bus.afterReadIf (busReadOf i (.constructed g))) :
    (onConstructed i body s).bus = s.bus.afterReadIf (busReadOf i s.block) := by
  cases hb : s.block with
  | unconstructed => rw [onConstructed_unconstructed i body s hb, respond_bus, hrefused, Bus.afterReadIf_none]
  | constructed g => rw [onConstructed_constructed i body s g hb, finish_bus, hbody g]

/-- CALIBRATE's body reads the bus only where no count is cached (R113). -/
theorem calibrate_bus_eq (g : Regs) (b : Bus) :
    (calibrate { regs := g, bus := b }).bus = b.afterReadIf (busReadOf .calibrate (.constructed g)) := by
  cases hc : g.outputCounts with
  | none => simp [calibrate_bus_of_none (w := { regs := g, bus := b }) hc, busReadOf, hc]
  | some c => simp [calibrate_bus_of_some (w := { regs := g, bus := b }) hc, busReadOf, hc]

/-- Only an accepted CONSTRUCT with auto-calibration reads the bus, at its operand (R93, R113). -/
theorem exec_construct_bus (addr : BusAddr) (maxp : RatedPressure) (autocal : Bool) (s : State) :
    ∃ t, exec (.construct addr maxp autocal) s = .next t
      ∧ t.bus = s.bus.afterReadIf (busReadOf (.construct addr maxp autocal) s.block) := by
  cases hb : s.block with
  | constructed g => exact ⟨_, exec_construct_of_constructed hb addr maxp autocal, rfl⟩
  | unconstructed =>
    rcases Int.lt_or_le 0 maxp.toInt with hpos | hnonpos
    · cases autocal with
      | false => exact ⟨_, exec_construct_plain hb addr hpos, by simp [busReadOf, State.withRegs]⟩
      | true =>
        refine ⟨_, exec_construct_autocal hb addr hpos, ?_⟩
        rw [finishConstruct_bus, calibrate_bus_of_none rfl]
        simp [busReadOf, hpos, freshRegs]
    · exact ⟨_, exec_construct_of_nonpos hb addr hnonpos autocal, by simp [busReadOf, Int.not_lt.2 hnonpos]⟩

/-- Every command answers a next state, whose bus has the one read R113 names, or none. -/
theorem exec_bus (i : Instr) (s : State) :
    ∃ t, exec i s = .next t ∧ t.bus = s.bus.afterReadIf (busReadOf i s.block) := by
  cases i with
  | construct addr maxp autocal => exact exec_construct_bus addr maxp autocal s
  | fetchRaw =>
    exact ⟨_, rfl, onConstructed_bus rfl fun g => (Res.bus_bind _ fun _ _ => rfl).trans (fetchRaw_bus _)⟩
  | getPressureB => exact ⟨_, rfl, onConstructed_bus rfl fun g => (getPressure_bus none _).trans (fetchRaw_bus _)⟩
  | getStatusB => exact ⟨_, rfl, onConstructed_bus rfl fun g => (statusValue_bus none _).trans (fetchRaw_bus _)⟩
  | getPressureR raw => exact ⟨_, rfl, onConstructed_bus rfl fun g => getPressure_bus (some raw) _⟩
  | getStatusR raw => exact ⟨_, rfl, onConstructed_bus rfl fun g => statusValue_bus (some raw) _⟩
  | calibrate =>
    exact ⟨_, rfl, onConstructed_bus rfl fun g => (Res.bus_bind _ fun _ _ => rfl).trans (calibrate_bus_eq g s.bus)⟩
  | decodeCounts raw => exact ⟨_, rfl, by cases s.block <;> rfl⟩
  | decodeStatus raw => exact ⟨_, rfl, by cases s.block <;> rfl⟩
  | discard => exact ⟨_, rfl, by cases s.block <;> rfl⟩

end Sys2Proof.Machine

open Sys2Proof Sys2Proof.Machine

/-- Settles O12: the bus each command leaves is known command by command, and an illegal word is answered before any read. -/
theorem eachCommandReadsTheBusAtMostOnce : Obligations.EachCommandReadsTheBusAtMostOnce := by
  refine ⟨fun i s => ?_, fun w s hillegal => ⟨_, accept_of_illegal hillegal s, rfl⟩⟩
  obtain ⟨t, hexec, hbus⟩ := exec_bus i s
  refine ⟨t, hexec, hbus.trans ?_⟩
  cases busReadOf i s.block <;> rfl

/-- Settles O29: FETCH_RAW is refused without an instance and on one ends as its bus read does, the registers as before. -/
theorem fetchRawFollowsItsRule : Obligations.FetchRawFollowsItsRule := by
  refine ⟨by decide, fun s hb => exec_fetchRaw_of_unconstructed hb, fun s g hb => ⟨fun raw hread => ?_, fun f hread => ?_⟩⟩
  · exact exec_fetchRaw_of_readsWord hb hread
  · exact exec_fetchRaw_of_readFails hb hread

end

section
/-! The pure decoders (42_decode.md): the status and the count side by side are the first two bytes (R125); DECODE_COUNTS and
DECODE_STATUS answer their field in every state (R121, R123, R124). -/

namespace Sys2Proof

/-- The word of an instruction whose `lo` is a raw operand: the row's fixed bits joined with the operand (R72). -/
theorem encode_eq_or_raw {i : Instr} {x : CmdFields} {raw : RawWord} (hlo : x.lo = 0#32)
    (hfields : fieldsOf i = { x with lo := raw }) : encode i = pack x ||| raw.setWidth 44 := by
  rw [encode, hfields, pack_or_raw x raw hlo]

end Sys2Proof

namespace Sys2Proof.Machine

/-- Bytes 0 and 1 are the status followed by the count (R125). -/
theorem extractLsb'_eq_statusOf_append_countsOf (raw : RawWord) :
    raw.extractLsb' 16 16 = statusOf raw ++ countsOf raw := by
  have hslices : raw.extractLsb' (16 + 14) 2 ++ raw.extractLsb' 16 14 = raw.extractLsb' 16 (2 + 14) :=
    BitVec.extractLsb'_append_extractLsb'_eq_extractLsb' rfl
  rw [statusOf_eq_extractLsb', countsOf_eq_extractLsb']
  exact hslices.symm

/-- byte0 is the status above the count's high six bits (R125). -/
theorem byte0_eq_statusOf_or_countsOf (raw : RawWord) :
    byte0 raw = (statusOf raw).setWidth 8 <<< 6 ||| ((countsOf raw) >>> 8).setWidth 8 := by
  apply BitVec.eq_of_getLsbD_eq
  intro i hi
  simp only [byte0, statusOf_eq_extractLsb', countsOf_eq_extractLsb', BitVec.getLsbD_or, BitVec.getLsbD_shiftLeft,
    BitVec.getLsbD_setWidth, BitVec.getLsbD_ushiftRight, BitVec.getLsbD_extractLsb']
  rcases Nat.lt_or_ge i 6 with hlow | hhigh
  · simp [hi, hlow, show 8 + i < 14 by omega, show 16 + (8 + i) = 24 + i by omega]
  · simp [hi, show ¬ i < 6 by omega, show ¬ 8 + i < 14 by omega, show i - 6 < 8 by omega, show i - 6 < 2 by omega,
      show 30 + (i - 6) = 24 + i by omega]

/-- byte1 is the count's low eight bits (R125). -/
theorem byte1_eq_countsOf_and (raw : RawWord) : byte1 raw = ((countsOf raw) &&& 0xFF#14).setWidth 8 := by
  have hmask : ∀ k : Fin 8, (0xFF#14).getLsbD k = true := by decide
  apply BitVec.eq_of_getLsbD_eq
  intro i hi
  simp only [byte1, countsOf_eq_extractLsb', BitVec.getLsbD_setWidth, BitVec.getLsbD_and, BitVec.getLsbD_extractLsb',
    hmask ⟨i, hi⟩]
  simp [hi, show i < 14 by omega]

/-- A word with the status and the count given, the uninterpreted bytes 2 and 3 zero. -/
def wordOfFields (x : StatusCode) (c : Counts) : RawWord := x ++ (c ++ 0#16)

@[simp] theorem statusOf_wordOfFields (x : StatusCode) (c : Counts) : statusOf (wordOfFields x c) = x := by
  rw [statusOf_eq_extractLsb']
  exact BitVec.extractLsb'_append_eq_left

@[simp] theorem countsOf_wordOfFields (x : StatusCode) (c : Counts) : countsOf (wordOfFields x c) = c := by
  rw [countsOf_eq_extractLsb', wordOfFields, BitVec.extractLsb'_append_eq_of_add_le (by decide),
    BitVec.extractLsb'_append_eq_left]

/-- DECODE_COUNTS answers the count of its operand and changes nothing else, whatever the state (R121, R124). -/
theorem exec_decodeCounts (raw : RawWord) (s : State) :
    exec (.decodeCounts raw) s = .next (s.answered 2#3 (degen s.block) (.ok ((countsOf raw).setWidth 48))) := rfl

/-- DECODE_STATUS answers the status of its operand and changes nothing else, whatever the state (R123, R124). -/
theorem exec_decodeStatus (raw : RawWord) (s : State) :
    exec (.decodeStatus raw) s = .next (s.answered 3#3 (degen s.block) (.ok ((statusOf raw).setWidth 48))) := rfl

end Sys2Proof.Machine

open Sys2Proof Sys2Proof.Machine

/-- Settles O18: the two bytes are the two fields side by side, so the fields determine the bytes, and any two fields can be
put side by side. -/
theorem statusAndCountsPartitionTheBytes : Obligations.StatusAndCountsPartitionTheBytes := by
  refine ⟨fun raw => ⟨byte0_eq_statusOf_or_countsOf raw, byte1_eq_countsOf_and raw⟩, fun raw raw' hstatus hcounts => ?_,
    fun x c => ⟨wordOfFields x c, statusOf_wordOfFields x c, countsOf_wordOfFields x c⟩⟩
  rw [extractLsb'_eq_statusOf_append_countsOf, hstatus, hcounts, ← extractLsb'_eq_statusOf_append_countsOf]

/-- Settles O30: each word is its row's fixed bits joined with the operand, and each answer the field, a slice of it. -/
theorem pureDecodersAnswerInEveryState : Obligations.PureDecodersAnswerInEveryState := by
  intro s raw
  have hcounts : pack { op := 2#3, f := true, hi := 0#8, lo := 0#32 } = 0x50000000000#44 := by decide
  have hstatus : pack { op := 3#3, f := true, hi := 0#8, lo := 0#32 } = 0x70000000000#44 := by decide
  rw [← hcounts, ← hstatus, ← countsOf_eq_extractLsb', ← statusOf_eq_extractLsb']
  exact ⟨encode_eq_or_raw rfl rfl, encode_eq_or_raw rfl rfl, exec_decodeCounts raw s, exec_decodeStatus raw s⟩

end

section
/-! The engine's ranges and GET_PRESSURE and GET_STATUS (43_transfer.md): the subtractor and the divisor (R131, R132), the
bound of the quotient and its word (R136), both forms of GET_STATUS (R146, R147) and the raw form of GET_PRESSURE (R141). -/

namespace Sys2Proof.Machine

/-! ## The range of the engine (R136) -/

theorem natAbs_diffOf_le (c omin : Counts) : (diffOf c omin).natAbs ≤ 16383 := by
  have hc := c.isLt
  have homin := omin.isLt
  rw [diffOf_eq]
  omega

/-- The largest rated pressure is 2147483647 (R15). -/
theorem natAbs_toInt_le_of_pos {mp : RatedPressure} (h : 0 < mp.toInt) : mp.toInt.natAbs ≤ 2147483647 := by
  have hlt : mp.toInt < 2147483648 := BitVec.toInt_lt
  omega

/-- The magnitude of the quotient is the quotient of the magnitudes, rounded down (R6, R133). -/
theorem natAbs_quotient (c omin : Counts) (mp : Int) :
    (quotient c omin mp).natAbs = (diffOf c omin).natAbs * mp.natAbs / (spanOf omin).natAbs := by
  rw [quotient_eq, Int.natAbs_tdiv, Int.natAbs_mul]
  rfl

theorem natAbs_diffOf_mul_le (c omin : Counts) {mp : RatedPressure} (h : 0 < mp.toInt) :
    (diffOf c omin).natAbs * mp.toInt.natAbs ≤ 16383 * 2147483647 :=
  Nat.mul_le_mul (natAbs_diffOf_le c omin) (natAbs_toInt_le_of_pos h)

/-- A divisor of magnitude 2 or more keeps the result below half of the bound. -/
theorem natAbs_quotient_lt_of_span {c omin : Counts} {mp : RatedPressure} (h : 0 < mp.toInt)
    (hspan : 2 ≤ (spanOf omin).natAbs) : (quotient c omin mp.toInt).natAbs < 8192 * 2147483647 := by
  have hnum := natAbs_diffOf_mul_le c omin h
  have hhalf := Nat.div_le_div_left (a := (diffOf c omin).natAbs * mp.toInt.natAbs) hspan (by decide)
  rw [natAbs_quotient]
  omega

/-- A result of half the bound or more comes from a span of 1 or -1 (R136). -/
theorem natAbs_span_eq_one {c omin : Counts} {mp : RatedPressure} (h : 0 < mp.toInt) (hspan : spanOf omin ≠ 0)
    (hbig : 8192 * 2147483647 ≤ (quotient c omin mp.toInt).natAbs) : (spanOf omin).natAbs = 1 := by
  have hlt : ¬ 2 ≤ (spanOf omin).natAbs := fun h2 => absurd (natAbs_quotient_lt_of_span h h2) (Nat.not_lt.2 hbig)
  have hpos := Int.natAbs_pos.2 hspan
  omega

/-- Where the span is 1 or -1 the zero is 14744 or 14746, so a count is at most 14746 away from it. -/
theorem natAbs_diffOf_le_of_span {c omin : Counts} (hspan : (spanOf omin).natAbs = 1) :
    (diffOf c omin).natAbs ≤ 14746 := by
  have hc := c.isLt
  rw [spanOf_eq] at hspan
  rw [diffOf_eq]
  omega

theorem natAbs_diffOf_eq_iff_of_span {c omin : Counts} (hspan : (spanOf omin).natAbs = 1) :
    (diffOf c omin).natAbs = 14746 ↔ c.toNat = 0 ∧ omin.toNat = 14746 := by
  have hc := c.isLt
  rw [spanOf_eq] at hspan
  rw [diffOf_eq]
  omega

theorem natAbs_quotient_of_span {c omin : Counts} {mp : Int} (hspan : (spanOf omin).natAbs = 1) :
    (quotient c omin mp).natAbs = (diffOf c omin).natAbs * mp.natAbs := by
  rw [natAbs_quotient, hspan, Nat.div_one]

/-- The largest magnitude the engine reaches (95_test_vectors.md section 2.3). -/
theorem natAbs_quotient_le_max (c omin : Counts) {mp : RatedPressure} (h : 0 < mp.toInt) (hspan : spanOf omin ≠ 0) :
    (quotient c omin mp.toInt).natAbs ≤ 14746 * 2147483647 := by
  rcases Nat.lt_or_ge (quotient c omin mp.toInt).natAbs (8192 * 2147483647) with hsmall | hbig
  · omega
  · have hone := natAbs_span_eq_one h hspan hbig
    rw [natAbs_quotient_of_span hone]
    exact Nat.mul_le_mul (natAbs_diffOf_le_of_span hone) (natAbs_toInt_le_of_pos h)

/-- Both factors at their largest, and the span -1 with them: one choice of operands. -/
theorem natAbs_quotient_eq_max_iff (c omin : Counts) {mp : RatedPressure} (h : 0 < mp.toInt) (hspan : spanOf omin ≠ 0) :
    (quotient c omin mp.toInt).natAbs = 14746 * 2147483647
      ↔ c.toNat = 0 ∧ omin.toNat = 14746 ∧ mp.toInt = 2147483647 := by
  constructor
  · intro hmax
    have hone := natAbs_span_eq_one h hspan (c := c) (by omega)
    have hmp := natAbs_toInt_le_of_pos h
    rw [natAbs_quotient_of_span hone] at hmax
    obtain ⟨hdiff, hrated⟩ :=
      (mul_eq_mul_iff_eq_and_eq_of_pos' (natAbs_diffOf_le_of_span hone) hmp (by decide) (by omega)).1 hmax
    obtain ⟨hc, homin⟩ := (natAbs_diffOf_eq_iff_of_span hone).1 hdiff
    exact ⟨hc, homin, by omega⟩
  · rintro ⟨hc, homin, hmp⟩
    have hone : (spanOf omin).natAbs = 1 := by rw [spanOf_eq, homin]; rfl
    rw [natAbs_quotient_of_span hone, (natAbs_diffOf_eq_iff_of_span hone).2 ⟨hc, homin⟩, hmp]
    rfl

/-! ## The result in its 48-bit word (R136) -/

theorem toInt_ofInt_of_natAbs_lt {q : Int} (h : q.natAbs < 2 ^ 45) : (BitVec.ofInt 48 q).toInt = q :=
  BitVec.toInt_ofInt_eq_self (by decide) (by omega) (by omega)

/-- Below 2^45 bits 47:45 of the word are copies of the sign. -/
theorem extractLsb'_ofInt_of_natAbs_lt {q : Int} (h : q.natAbs < 2 ^ 45) :
    (BitVec.ofInt 48 q).extractLsb' 45 3 = if q < 0 then 7#3 else 0#3 := by
  apply BitVec.eq_of_toNat_eq
  rw [BitVec.extractLsb'_toNat, BitVec.toNat_ofInt, Nat.shiftRight_eq_div_pow]
  split
  · rw [show (7#3).toNat = 7 from rfl]
    omega
  · rw [show (0#3).toNat = 0 from rfl]
    omega

/-! ## A command on an instance, by the way its body ends (R80, R191) -/

theorem onConstructed_of_unconstructed {s : State} (h : s.block = .unconstructed) (i : Instr)
    (body : Work → Res Value) : onConstructed i body s = s.answered (opcode i) false (.fail .notConstructed) := by
  rw [onConstructed_unconstructed i body s h, respond_eq_answered, h, degen_unconstructed]

theorem onConstructed_of_ok {s : State} {g : Regs} (h : s.block = .constructed g) {i : Instr} {body : Work → Res Value}
    {v : Value} {w : Work} (hbody : body { regs := g, bus := s.bus } = .ok v w) :
    onConstructed i body s = (s.setWork w).answered (opcode i) (flagged w.regs.outputMin) (.ok v) := by
  rw [onConstructed_constructed i body s g h, hbody, finish_ok, respond_eq_answered, State.setWork_block,
    degen_constructed]

theorem onConstructed_of_raise {s : State} {g : Regs} (h : s.block = .constructed g) {i : Instr}
    {body : Work → Res Value} {f : Failure} {w : Work} (hbody : body { regs := g, bus := s.bus } = .raise f w) :
    onConstructed i body s = (s.setWork w).answered (opcode i) (flagged w.regs.outputMin) (.fail f) := by
  rw [onConstructed_constructed i body s g h, hbody, finish_raise, respond_eq_answered, State.setWork_block,
    degen_constructed]

/-! ## GET_PRESSURE.R (R141) -/

/-- Where the span is 0 the counts alone are stored (R134, R140). -/
theorem storeReading_of_eq (raw : RawWord) {g : Regs} (b : Bus) (h : g.outputMin = 14745#14) :
    storeReading raw { regs := g, bus := b }
      = .raise .degenerateCalibration { regs := g.setCounts (countsOf raw), bus := b } := by
  obtain ⟨hne, _⟩ | ⟨_, hr⟩ := storeReading_cases raw { regs := g, bus := b }
  · exact absurd h hne
  · exact hr

theorem exec_getPressureR (raw : RawWord) (s : State) :
    exec (.getPressureR raw) s = .next (onConstructed (.getPressureR raw) (getPressure (some raw)) s) := rfl

theorem exec_getPressureR_of_ne {s : State} {g : Regs} (h : s.block = .constructed g) (raw : RawWord)
    (hmin : g.outputMin ≠ 14745#14) :
    exec (.getPressureR raw) s
      = .next ((s.withRegs ((g.setCounts (countsOf raw)).setPressure
          (pressureOf (countsOf raw) g.outputMin g.maxPressure))).answered
          4#3 (flagged g.outputMin) (.ok (pressureOf (countsOf raw) g.outputMin g.maxPressure))) := by
  have hbody := getPressure_some raw { regs := g, bus := s.bus }
  rw [storeReading_of_ne raw g s.bus hmin, Res.bind_ok] at hbody
  rw [exec_getPressureR, onConstructed_of_ok h hbody]
  rfl

theorem exec_getPressureR_of_eq {s : State} {g : Regs} (h : s.block = .constructed g) (raw : RawWord)
    (hmin : g.outputMin = 14745#14) :
    exec (.getPressureR raw) s
      = .next ((s.withRegs (g.setCounts (countsOf raw))).answered 4#3 true (.fail .degenerateCalibration)) := by
  have hbody := getPressure_some raw { regs := g, bus := s.bus }
  have hwarn : flagged (g.setCounts (countsOf raw)).outputMin = true := by rw [Regs.setCounts_outputMin, hmin]; rfl
  rw [storeReading_of_eq raw s.bus hmin, Res.bind_raise] at hbody
  rw [exec_getPressureR, onConstructed_of_raise h hbody, hwarn]
  rfl

/-! ## GET_STATUS (R146, R147) -/

theorem exec_getStatusR (raw : RawWord) (s : State) :
    exec (.getStatusR raw) s = .next (onConstructed (.getStatusR raw) (statusValue (some raw)) s) := rfl

theorem exec_getStatusB (s : State) :
    exec .getStatusB s = .next (onConstructed .getStatusB (statusValue none) s) := rfl

theorem exec_getStatusR_of_constructed {s : State} {g : Regs} (h : s.block = .constructed g) (raw : RawWord) :
    exec (.getStatusR raw) s
      = .next ((s.withRegs (g.setStatus (statusOf raw))).answered
          5#3 (flagged g.outputMin) (.ok ((statusOf raw).setWidth 48))) := by
  rw [exec_getStatusR, onConstructed_of_ok h (statusValue_some raw _)]
  rfl

/-- The bus form on a whole reading is the raw form on the word read, after the read (R145). -/
theorem statusValue_none_of_readsWord (g : Regs) {b : Bus} {raw : RawWord} (h : readsWord b raw) :
    statusValue none { regs := g, bus := b } = statusValue (some raw) { regs := g, bus := b.afterRead g.busAddr } := by
  rw [statusValue, getStatus, rawOrFetch_none, fetchRaw_readsWord g b raw h]
  rfl

theorem statusValue_none_of_readFails (g : Regs) {b : Bus} {f : Failure} (h : readFails b f) :
    statusValue none { regs := g, bus := b } = .raise f { regs := g, bus := b.afterRead g.busAddr } := by
  rw [statusValue, getStatus, rawOrFetch_none, fetchRaw_readFails g b f h, Res.bind_raise, Res.bind_raise]

theorem exec_getStatusB_of_readsWord {s : State} {g : Regs} (h : s.block = .constructed g) {raw : RawWord}
    (hread : readsWord s.bus raw) :
    exec .getStatusB s
      = .next (((s.withRead g.busAddr).withRegs (g.setStatus (statusOf raw))).answered
          5#3 (flagged g.outputMin) (.ok ((statusOf raw).setWidth 48))) := by
  rw [exec_getStatusB, onConstructed_of_ok h ((statusValue_none_of_readsWord g hread).trans (statusValue_some raw _))]
  rfl

theorem exec_getStatusB_of_readFails {s : State} {g : Regs} (h : s.block = .constructed g) {f : Failure}
    (hread : readFails s.bus f) :
    exec .getStatusB s = .next ((s.withRead g.busAddr).answered 5#3 (flagged g.outputMin) (.fail f)) := by
  rw [exec_getStatusB, onConstructed_of_raise h (statusValue_none_of_readFails g hread), setWork_afterRead h, opcode]

end Sys2Proof.Machine

open Sys2Proof Sys2Proof.Machine

/-- Settles O19: counts are below 2^14, and the signs are comparisons of counts. -/
theorem diffAndSpanAreExact : Obligations.DiffAndSpanAreExact := by
  refine ⟨fun c omin => ⟨diffOf_eq c omin, ?_⟩, fun omin => ⟨spanOf_eq omin, ?_⟩, by decide⟩
  · have hle := natAbs_diffOf_le c omin
    rw [diffOf_eq] at hle ⊢
    omega
  · obtain ⟨hlo, hhi⟩ := spanOf_bounds omin
    refine ⟨hlo, hhi, ?_⟩
    rw [spanOf_eq]
    omega

/-- Settles O21: the factors are bounded, half the rule's bound needs a span of 1 or -1, and that span bounds the distance of
the count from the zero. -/
theorem transferNeverOverflows : Obligations.TransferNeverOverflows := by
  intro c omin mp hmp hspan
  have hprod := natAbs_diffOf_mul_le c omin hmp
  have hmax := natAbs_quotient_le_max c omin hmp hspan
  have hlt : (quotient c omin mp.toInt).natAbs < 2 ^ 45 := by omega
  refine ⟨hmax.trans (by decide), hlt, natAbs_span_eq_one hmp hspan, hmax,
    natAbs_quotient_eq_max_iff c omin hmp hspan, ?_, ?_, toInt_ofInt_of_natAbs_lt hlt, extractLsb'_ofInt_of_natAbs_lt hlt⟩
  · rw [Int.natAbs_mul]
    omega
  · rw [Int.natAbs_mul, Int.natAbs_mul, show ((2 : Int) ^ 16).natAbs = 65536 from rfl]
    omega

/-- Settles O31: the word is the row's fixed bits joined with the operand; the command ends as its reading is stored. -/
theorem getPressureRawFollowsItsRule : Obligations.GetPressureRawFollowsItsRule := by
  intro s raw
  have hword : pack { op := 4#3, f := true, hi := 0#8, lo := 0#32 } = 0x90000000000#44 := by decide
  rw [← hword, ← countsOf_eq_extractLsb']
  refine ⟨encode_eq_or_raw rfl rfl, fun hb => ?_, fun g hb hmin => ?_, fun g hb hmin => ?_⟩
  · rw [exec_getPressureR, onConstructed_of_unconstructed hb, opcode]
  · exact exec_getPressureR_of_ne hb raw hmin
  · exact exec_getPressureR_of_eq hb raw hmin

/-- Settles O34: with its reading at hand the command on an instance has one outcome. -/
theorem getStatusRawFollowsItsRule : Obligations.GetStatusRawFollowsItsRule := by
  intro s raw
  have hword : pack { op := 5#3, f := true, hi := 0#8, lo := 0#32 } = 0xB0000000000#44 := by decide
  rw [← hword, ← statusOf_eq_extractLsb']
  refine ⟨encode_eq_or_raw rfl rfl, fun hb => ?_, fun g hb => exec_getStatusR_of_constructed hb raw⟩
  rw [exec_getStatusR, onConstructed_of_unconstructed hb, opcode]

/-- Settles O35: the command ends as its one bus read does, and on a whole reading as the raw form. -/
theorem getStatusBusFollowsItsRule : Obligations.GetStatusBusFollowsItsRule := by
  refine ⟨by decide, fun s hb => ?_, fun s g hb => ⟨fun f hread => ?_, fun raw hread => ?_⟩⟩
  · rw [exec_getStatusB, onConstructed_of_unconstructed hb, opcode]
  · exact exec_getStatusB_of_readFails hb hread
  · rw [← statusOf_eq_extractLsb']
    exact exec_getStatusB_of_readsWord hb hread

end

section
/-! CALIBRATE (44_calibrate.md): how it ends on cached counts and on its one bus read (R161), and when it fails (R166). -/

namespace Sys2Proof.Machine

/-! ## CALIBRATE, by the counts cached and the read (R161) -/

/-- The body of CALIBRATE: its value is the new zero (R82, R161). -/
def calibrateValue (w : Work) : Res Value :=
  (calibrate w).bind fun m w' => .ok (m.setWidth 48) w'

theorem exec_calibrate (s : State) : exec .calibrate s = .next (onConstructed .calibrate calibrateValue s) := rfl

/-- A cached count becomes the zero as it stands (R162). -/
theorem calibrate_of_some {g : Regs} {c : Counts} (hcounts : g.outputCounts = some c) (b : Bus) :
    calibrate { regs := g, bus := b } = .ok c { regs := g.setZero c, bus := b } := by
  rw [calibrate, currentCounts_some { regs := g, bus := b } c hcounts, Res.bind_ok]

theorem exec_calibrate_of_some {s : State} {g : Regs} {c : Counts} (h : s.block = .constructed g)
    (hcounts : g.outputCounts = some c) :
    exec .calibrate s = .next ((s.withRegs (g.setZero c)).answered 6#3 (flagged c) (.ok (c.setWidth 48))) := by
  have hbody : calibrateValue { regs := g, bus := s.bus }
      = .ok (c.setWidth 48) { regs := g.setZero c, bus := s.bus } := by
    rw [calibrateValue, calibrate_of_some hcounts, Res.bind_ok]
  rw [exec_calibrate, onConstructed_of_ok h hbody]
  rfl

theorem exec_calibrate_of_readsWord {s : State} {g : Regs} {raw : RawWord} (h : s.block = .constructed g)
    (hcounts : g.outputCounts = none) (hmin : g.outputMin ≠ 14745#14) (hread : readsWord s.bus raw) :
    exec .calibrate s
      = .next (((s.withRead g.busAddr).withRegs (g.calibratedAt (raw.extractLsb' 16 14))).answered
          6#3 (flagged (raw.extractLsb' 16 14)) (.ok ((raw.extractLsb' 16 14).setWidth 48))) := by
  have hbody : calibrateValue { regs := g, bus := s.bus }
      = .ok ((raw.extractLsb' 16 14).setWidth 48)
          { regs := g.calibratedAt (raw.extractLsb' 16 14), bus := s.bus.afterRead g.busAddr } := by
    rw [calibrateValue, calibrate_of_readsWord hcounts hmin hread, Res.bind_ok]
  rw [exec_calibrate, onConstructed_of_ok h hbody]
  rfl

theorem exec_calibrate_of_readFails {s : State} {g : Regs} {f : Failure} (h : s.block = .constructed g)
    (hcounts : g.outputCounts = none) (hread : readFails s.bus f) :
    exec .calibrate s = .next ((s.withRead g.busAddr).answered 6#3 (flagged g.outputMin) (.fail f)) := by
  have hbody : calibrateValue { regs := g, bus := s.bus } = .raise f { regs := g, bus := s.bus.afterRead g.busAddr } := by
    rw [calibrateValue, calibrate_of_readFails hcounts hread, Res.bind_raise]
  rw [exec_calibrate, onConstructed_of_raise h hbody, setWork_afterRead h, opcode]

theorem exec_calibrate_of_never {s : State} {g : Regs} (h : s.block = .constructed g) (hcounts : g.outputCounts = none)
    (hdraw : nextDraw s.bus = .never) :
    exec .calibrate s = .next { s.withRead g.busAddr with waiting := some .calibrate } := by
  rw [exec_calibrate, onConstructed_constructed _ _ s g h, calibrateValue, calibrate_of_never hcounts hdraw]
  rfl

/-! ## What R25 makes of an instance without counts -/

/-- (I-d) of R25: before the first reading the zero is the default one and no calibration is recorded. -/
theorem Regs.Inv.of_outputCounts_none {g : Regs} (hinv : g.Inv) (hcounts : g.outputCounts = none) :
    g.outputMin = 1638#14 ∧ g.calibrated = false := by
  obtain ⟨_, _, _, huncounted, _⟩ := hinv
  obtain ⟨hmin, hcalibrated, _⟩ := huncounted (by rw [hcounts, Option.isSome_none])
  exact ⟨hmin, hcalibrated⟩

/-- (I-b) of R25: a calibrated instance has counts. -/
theorem Regs.Inv.exists_outputCounts {g : Regs} (hinv : g.Inv) (hcalibrated : g.calibrated = true) :
    ∃ c, g.outputCounts = some c := by
  obtain ⟨_, hcounted, _⟩ := hinv
  exact Option.isSome_iff_exists.1 (hcounted hcalibrated)

/-- CALIBRATE fails on an instance only where no counts are cached, in its bus read: a whole reading meets the default zero,
whose span is not 0 (R166). -/
theorem exec_calibrate_fails {s t : State} {g : Regs} {warn : Bool} {f : Failure} (h : s.block = .constructed g)
    (hinv : g.Inv) (hexec : exec .calibrate s = .next t)
    (hresp : t.responses = s.responses ++ [{ op := 6#3, warn := warn, result := .fail f }]) :
    g.outputCounts = none ∧ readFails s.bus f ∧ t.block = s.block := by
  cases hcounts : g.outputCounts with
  | some c =>
    rw [exec_calibrate_of_some h hcounts] at hexec
    cases hexec
    simp [State.withRegs] at hresp
  | none =>
    rcases nextDraw_cases s.bus with hdraw | ⟨raw, hread⟩ | ⟨f', hread⟩
    · rw [exec_calibrate_of_never h hcounts hdraw] at hexec
      cases hexec
      simp at hresp
    · obtain ⟨hmin, _⟩ := hinv.of_outputCounts_none hcounts
      rw [exec_calibrate_of_readsWord h hcounts (by simp [hmin]) hread] at hexec
      cases hexec
      simp [State.withRegs] at hresp
    · rw [exec_calibrate_of_readFails h hcounts hread] at hexec
      cases hexec
      obtain ⟨-, rfl⟩ : flagged g.outputMin = warn ∧ f' = f := by simpa using hresp
      exact ⟨rfl, hread, rfl⟩

end Sys2Proof.Machine

open Sys2Proof Sys2Proof.Machine

/-- Settles O36: without counts the zero is still the default one, so a whole reading is stored and a
failed one is answered with the warning bit 0. -/
theorem calibrateFollowsItsRule : Obligations.CalibrateFollowsItsRule := by
  refine ⟨by decide, fun s hb => ?_, fun s g c hb hcounts => exec_calibrate_of_some hb hcounts,
    fun s g hb hinv hcounts => ?_⟩
  · rw [exec_calibrate, onConstructed_of_unconstructed hb, opcode]
  · obtain ⟨hmin, _⟩ := hinv.of_outputCounts_none hcounts
    refine ⟨fun raw hread => exec_calibrate_of_readsWord hb hcounts (by simp [hmin]) hread, fun f hread => ?_⟩
    have hwarn : flagged g.outputMin = false := by rw [hmin]; rfl
    rw [exec_calibrate_of_readFails hb hcounts hread, hwarn]

/-- Settles O37: a failing CALIBRATE has no counts cached, a calibrated instance has them. -/
theorem calibrateFailsOnlyWithItsRead : Obligations.CalibrateFailsOnlyWithItsRead := by
  refine ⟨fun s t g warn f hb hinv hexec hresp => ?_, fun s g hb hinv hcalibrated => ?_⟩
  · obtain ⟨hcounts, hread, hblock⟩ := exec_calibrate_fails hb hinv hexec hresp
    obtain ⟨_, huncalibrated⟩ := hinv.of_outputCounts_none hcounts
    exact ⟨hblock, hread, huncalibrated⟩
  · obtain ⟨c, hcounts⟩ := hinv.exists_outputCounts hcalibrated
    exact ⟨_, _, exec_calibrate_of_some hb hcounts, rfl, rfl⟩

end

section
/-! The commands that need an instance (R186): which they are, and what they answer without one. -/

namespace Sys2Proof.Machine

/-- Every command but CONSTRUCT, DISCARD and the two pure decoders runs a body of its own on an instance (R186). -/
theorem exec_eq_onConstructed {i : Instr} (hconstruct : ∀ a m b, i ≠ .construct a m b)
    (hcounts : ∀ raw, i ≠ .decodeCounts raw) (hstatus : ∀ raw, i ≠ .decodeStatus raw) (hdiscard : i ≠ .discard) :
    ∃ body, ∀ s, exec i s = .next (onConstructed i body s) := by
  cases i with
  | construct addr maxp autocal => exact absurd rfl (hconstruct addr maxp autocal)
  | decodeCounts raw => exact absurd rfl (hcounts raw)
  | decodeStatus raw => exact absurd rfl (hstatus raw)
  | discard => exact absurd rfl hdiscard
  | fetchRaw => exact ⟨_, fun _ => rfl⟩
  | getPressureR raw => exact ⟨_, exec_getPressureR raw⟩
  | getPressureB => exact ⟨_, fun _ => rfl⟩
  | getStatusR raw => exact ⟨_, exec_getStatusR raw⟩
  | getStatusB => exact ⟨_, exec_getStatusB⟩
  | calibrate => exact ⟨_, exec_calibrate⟩

end Sys2Proof.Machine

open Sys2Proof Sys2Proof.Machine

/-- Settles O38: each of these commands runs its body on an instance only, so without one no body runs. -/
theorem instanceCommandsAreRefusedWithoutOne : Obligations.InstanceCommandsAreRefusedWithoutOne := by
  intro s i hb hconstruct hcounts hstatus hdiscard
  obtain ⟨body, hexec⟩ := exec_eq_onConstructed hconstruct hcounts hstatus hdiscard
  rw [hexec, onConstructed_of_unconstructed hb]

end

section
/-! Reset (70_reset_and_hazards.md R210, R213), and the observation ports of an instance and of none (R24, R212). -/

namespace Sys2Proof.Machine

/-- An assertion of `rst` is taken whether or not a command waits (R213). -/
theorem step_of_reset {s : State} {rest : List Input} (hinputs : s.inputs = .reset :: rest) :
    step s = .next (resetBlock { s with inputs := rest }) := by
  simp [step, hinputs]

/-- Each port of an instance carries its register, a valid-bit port whether the cached register holds a value (R24). -/
theorem ports_of_constructed {s : State} {g : Regs} (h : s.block = .constructed g) :
    ports s =
      { qLife := true
        qBusAddr := some g.busAddr
        qMaxPressure := some g.maxPressure
        qOutputMin := some g.outputMin
        qCalibrated := some g.calibrated
        qCountsValid := some g.outputCounts.isSome
        qOutputCounts := g.outputCounts
        qPressureValid := some g.pressure.isSome
        qPressure := g.pressure
        qStatusValid := some g.status.isSome
        qStatus := g.status
        qSpan := some (BitVec.ofInt 16 (spanOf g.outputMin))
        qDegen := flagged g.outputMin
        qBusClaim := true } := by
  simp [ports, h, busClaim_of_constructed h]

/-- In UNCONSTRUCTED three ports carry a value; `q_bus_claim` alone depends on the command in progress (R23, R212). -/
theorem ports_of_unconstructed {s : State} (h : s.block = .unconstructed) :
    ports s =
      { qLife := false
        qBusAddr := none
        qMaxPressure := none
        qOutputMin := none
        qCalibrated := none
        qCountsValid := none
        qOutputCounts := none
        qPressureValid := none
        qPressure := none
        qStatusValid := none
        qStatus := none
        qSpan := none
        qDegen := false
        qBusClaim := busClaim s } := by
  simp [ports, h]

end Sys2Proof.Machine

open Sys2Proof Sys2Proof.Machine

/-- Settles O9: the block reset leaves has no instance and no command in progress; so has the one after power-on reset. -/
theorem resetLeavesUnconstructed : Obligations.ResetLeavesUnconstructed := by
  refine ⟨fun s rest hinputs => ?_, rfl, cmdReady_of_idle rfl, rfl, busClaim_of_unconstructed_idle rfl rfl, rfl, rfl⟩
  exact ⟨_, _, step_of_reset hinputs, exec_discard s, rfl, rfl, rfl, cmdReady_of_idle rfl, rfl,
    busClaim_of_unconstructed_idle rfl rfl, rfl, rfl, rfl⟩

/-- Settles O51: with an instance each port is its register; without one only `q_bus_claim` asks for an idle block. -/
theorem portsShowTheRegisters : Obligations.PortsShowTheRegisters := by
  refine ⟨fun s g hb => ?_, fun s hb => ?_⟩
  · rw [ports_of_constructed hb]
    exact ⟨rfl, rfl, rfl, rfl, rfl, ⟨_, rfl, Iff.rfl⟩, rfl, ⟨_, rfl, Iff.rfl⟩, rfl, ⟨_, rfl, Iff.rfl⟩, rfl⟩
  · rw [ports_of_unconstructed hb]
    exact ⟨rfl, rfl, busClaim_of_unconstructed_idle hb, rfl, rfl, rfl, rfl, rfl, rfl, rfl, rfl, rfl, rfl, rfl⟩

end

section
/-! Decoding and encoding are inverse (30_encoding.md R72, R73), and the rows of the table select exactly the words that
decode (R72, R74). -/

namespace Sys2Proof

/-! ## Decoding and encoding (R72) -/

theorem decodeFields_fieldsOf (i : Instr) : decodeFields (fieldsOf i) = .instr i := by
  cases i <;> rfl

theorem decode_encode (i : Instr) : decode (encode i) = .instr i := by
  rw [decode, encode, unpack_pack, decodeFields_fieldsOf]

theorem noOperand_eq_instr_iff (x : CmdFields) (i j : Instr) :
    noOperand x i = .instr j ↔ x.f = false ∧ x.hi = 0#8 ∧ x.lo = 0#32 ∧ i = j := by
  unfold noOperand
  split_ifs <;> simp_all

theorem rawOperand_eq_instr_iff (x : CmdFields) (i : RawWord → Instr) (j : Instr) :
    rawOperand x i = .instr j ↔ x.f = true ∧ x.hi = 0#8 ∧ i x.lo = j := by
  unfold rawOperand
  split_ifs <;> simp_all

theorem rawOrBus_eq_instr_iff (x : CmdFields) (raw : RawWord → Instr) (bus j : Instr) :
    rawOrBus x raw bus = .instr j
      ↔ x.hi = 0#8 ∧ ((x.f = true ∧ raw x.lo = j) ∨ (x.f = false ∧ x.lo = 0#32 ∧ bus = j)) := by
  unfold rawOrBus
  split_ifs <;> simp_all

/-- Opcode by opcode, the fields that decode are those of the instruction they decode to (R72). -/
theorem fieldsOf_of_decodeFields {x : CmdFields} {i : Instr} (h : decodeFields x = .instr i) : fieldsOf i = x := by
  obtain ⟨op, f, hi, lo⟩ := x
  have hnone : ∀ {j}, noOperand ⟨op, f, hi, lo⟩ j = .instr i → f = false ∧ hi = 0#8 ∧ lo = 0#32 ∧ j = i :=
    (noOperand_eq_instr_iff _ _ _).1
  have hraw : ∀ {j}, rawOperand ⟨op, f, hi, lo⟩ j = .instr i → f = true ∧ hi = 0#8 ∧ j lo = i :=
    (rawOperand_eq_instr_iff _ _ _).1
  have hboth : ∀ {j k}, rawOrBus ⟨op, f, hi, lo⟩ j k = .instr i →
      hi = 0#8 ∧ ((f = true ∧ j lo = i) ∨ (f = false ∧ lo = 0#32 ∧ k = i)) := (rawOrBus_eq_instr_iff _ _ _ _).1
  rcases opBits_cases op with rfl | rfl | rfl | rfl | rfl | rfl | rfl | rfl
  · cases h; rfl
  · obtain ⟨rfl, rfl, rfl, rfl⟩ := hnone h; rfl
  · obtain ⟨rfl, rfl, rfl⟩ := hraw h; rfl
  · obtain ⟨rfl, rfl, rfl⟩ := hraw h; rfl
  · obtain ⟨rfl, ⟨rfl, rfl⟩ | ⟨rfl, rfl, rfl⟩⟩ := hboth h <;> rfl
  · obtain ⟨rfl, ⟨rfl, rfl⟩ | ⟨rfl, rfl, rfl⟩⟩ := hboth h <;> rfl
  · obtain ⟨rfl, rfl, rfl, rfl⟩ := hnone h; rfl
  · obtain ⟨rfl, rfl, rfl, rfl⟩ := hnone h; rfl

theorem encode_of_decode {w : CmdWord} {i : Instr} (h : decode w = .instr i) : encode i = w := by
  rw [encode, fieldsOf_of_decodeFields h, pack_unpack]

/-! ## The rows (R72) -/

theorem rowSelectsWord (i : Instr) : Laws.RowSelectsWord.Statement i := by
  cases i with
  | construct addr maxp autocal => exact Laws.RowSelectsWord.construct addr maxp autocal
  | fetchRaw => exact Laws.RowSelectsWord.fetchRaw
  | decodeCounts raw => exact Laws.RowSelectsWord.decodeCounts raw
  | decodeStatus raw => exact Laws.RowSelectsWord.decodeStatus raw
  | getPressureR raw => exact Laws.RowSelectsWord.getPressureR raw
  | getPressureB => exact Laws.RowSelectsWord.getPressureB
  | getStatusR raw => exact Laws.RowSelectsWord.getStatusR raw
  | getStatusB => exact Laws.RowSelectsWord.getStatusB
  | calibrate => exact Laws.RowSelectsWord.calibrate
  | discard => exact Laws.RowSelectsWord.discard

theorem pack_injective {x y : CmdFields} (h : pack x = pack y) : x = y := by
  rw [← unpack_pack x, h, unpack_pack]

/-- Masking with the row of CONSTRUCT leaves the opcode. -/
theorem pack_and_opMask (x : CmdFields) :
    pack x &&& 0xE0000000000#44 = pack { op := x.op, f := false, hi := 0#8, lo := 0#32 } := by
  have hmask : ∀ k : Fin 44, (0xE0000000000#44).getLsbD k = decide (41 ≤ k.val) := by decide
  apply BitVec.eq_of_getLsbD_eq
  intro i hi
  simp only [BitVec.getLsbD_and, hmask ⟨i, hi⟩, pack, BitVec.getLsbD_append]
  rcases Nat.lt_or_ge i 41 with hlow | hhigh
  · simp [show ¬ 41 ≤ i by omega, show i - 32 - 8 < 1 by omega]
  · simp [hhigh, show ¬ i < 32 by omega, show ¬ i - 32 < 8 by omega, show ¬ i - 32 - 8 < 1 by omega]

/-- Opcode 0 is CONSTRUCT, whatever the other fields (R74). -/
theorem decode_of_and_opMask {w : CmdWord} (h : w &&& 0xE0000000000#44 = 0#44) :
    decode w = .instr (.construct (unpack w).hi (unpack w).lo (unpack w).f) := by
  have hzero : (0#44 : CmdWord) = pack { op := 0#3, f := false, hi := 0#8, lo := 0#32 } := by decide
  rw [← pack_unpack w, pack_and_opMask, hzero] at h
  have hop : (unpack w).op = 0#3 := congrArg CmdFields.op (pack_injective h)
  simp [decode, decodeFields, hop]

/-- A row without free bits selects the one word of its instruction. -/
theorem decode_of_and_full {w : CmdWord} {i : Instr} (h : w &&& 0xFFFFFFFFFFF#44 = encode i) :
    decode w = .instr i := by
  have hmask : (0xFFFFFFFFFFF#44) = BitVec.allOnes 44 := by decide
  rw [hmask, BitVec.and_allOnes] at h
  rw [h, decode_encode]

/-- A row whose free bits are `lo` selects the words of its instructions only: the other fields are the row's. -/
theorem decode_of_and_high {w : CmdWord} {i : Instr} (h : w &&& 0xFFF00000000#44 = encode i) :
    decode w = decodeFields { fieldsOf i with lo := (unpack w).lo } := by
  rw [← pack_unpack w, Laws.RowSelectsWord.mask_of_high, encode] at h
  rw [decode, ← pack_injective h]

/-- A word a row selects decodes to an instruction of that row (R72). -/
theorem decode_of_row {w : CmdWord} {i : Instr} (h : w &&& rowMask i = rowMatch i) :
    ∃ j, decode w = .instr j ∧ rowMask j = rowMask i ∧ rowMatch j = rowMatch i := by
  cases i with
  | construct addr maxp autocal => exact ⟨_, decode_of_and_opMask h, rfl, rfl⟩
  | fetchRaw => exact ⟨_, decode_of_and_full (i := .fetchRaw) h, rfl, rfl⟩
  | getPressureB => exact ⟨_, decode_of_and_full (i := .getPressureB) h, rfl, rfl⟩
  | getStatusB => exact ⟨_, decode_of_and_full (i := .getStatusB) h, rfl, rfl⟩
  | calibrate => exact ⟨_, decode_of_and_full (i := .calibrate) h, rfl, rfl⟩
  | discard => exact ⟨_, decode_of_and_full (i := .discard) h, rfl, rfl⟩
  | decodeCounts raw => exact ⟨.decodeCounts _, decode_of_and_high (i := .decodeCounts 0) h, rfl, rfl⟩
  | decodeStatus raw => exact ⟨.decodeStatus _, decode_of_and_high (i := .decodeStatus 0) h, rfl, rfl⟩
  | getPressureR raw => exact ⟨.getPressureR _, decode_of_and_high (i := .getPressureR 0) h, rfl, rfl⟩
  | getStatusR raw => exact ⟨.getStatusR _, decode_of_and_high (i := .getStatusR 0) h, rfl, rfl⟩

end Sys2Proof

open Sys2Proof

/-- Settles O1: packing loses no field, and the decoder reads each row's fields back opcode by opcode. -/
theorem decodeInvertsEncode : Obligations.DecodeInvertsEncode :=
  fun i _ => decode_encode i

/-- Settles O2: opcode by opcode the decoder accepts only the fields of the instruction it answers. -/
theorem encodeInvertsDecode : Obligations.EncodeInvertsDecode :=
  fun _ _ => encode_of_decode

/-- Settles O4: a word that decodes is the word of its instruction, which stands under its row; a row fixes every field but
the operand's; and a word has one instruction, so one row. -/
theorem rowsSelectWordsDisjointly : Obligations.RowsSelectWordsDisjointly := by
  refine ⟨fun w i h => ?_, fun w i => decode_of_row, fun w i j hi hj => ?_⟩
  · rw [← encode_of_decode h]
    exact rowSelectsWord i
  · obtain ⟨k, hk, _, hki⟩ := decode_of_row hi
    obtain ⟨l, hl, _, hlj⟩ := decode_of_row hj
    obtain rfl : k = l := Decoded.instr.inj (hk.symm.trans hl)
    rw [← hki, hlj]

end


section
/-! How a command ends, said once for every command: with one response (R80, R204), or in progress where its bus read is
never answered (R46). -/

namespace Sys2Proof.Machine

/-! ## The body of a command on an instance -/

/-- The sub-operation a command runs on an instance (R190). DISCARD ends the instance instead: its entry stands for none. -/
def bodyOf : Instr → Work → Res Value
  | .construct _ _ _ => .raise .alreadyConstructed
  | .fetchRaw => fun w => (fetchRaw w).bind fun raw w' => .ok (raw.setWidth 48) w'
  | .decodeCounts raw => .ok ((countsOf raw).setWidth 48)
  | .decodeStatus raw => .ok ((statusOf raw).setWidth 48)
  | .getPressureR raw => getPressure (some raw)
  | .getPressureB => getPressure none
  | .getStatusR raw => statusValue (some raw)
  | .getStatusB => statusValue none
  | .calibrate => calibrateValue
  | .discard => .ok 0#48

theorem setWork_self {s : State} {g : Regs} (h : s.block = .constructed g) :
    s.setWork { regs := g, bus := s.bus } = s := by
  simp [State.setWork, ← h]

/-- On an instance every command but DISCARD ends as its body does. -/
theorem exec_of_constructed {s : State} {g : Regs} (h : s.block = .constructed g) {i : Instr} (hi : i ≠ .discard) :
    exec i s = .next (finish i s (bodyOf i { regs := g, bus := s.bus })) := by
  cases i with
  | construct addr maxp autocal =>
    simp [exec, execConstruct, h, bodyOf, setWork_self h]
  | fetchRaw => exact exec_fetchRaw_of_constructed h
  | decodeCounts raw => simp [exec, execDecodeCounts, bodyOf, setWork_self h]
  | decodeStatus raw => simp [exec, execDecodeStatus, bodyOf, setWork_self h]
  | getPressureR raw => exact congrArg _ (onConstructed_constructed _ _ s g h)
  | getPressureB => exact congrArg _ (onConstructed_constructed _ _ s g h)
  | getStatusR raw => exact congrArg _ (onConstructed_constructed _ _ s g h)
  | getStatusB => exact congrArg _ (onConstructed_constructed _ _ s g h)
  | calibrate => exact congrArg _ (onConstructed_constructed _ _ s g h)
  | discard => exact absurd rfl hi

/-! ## Waiting for the bus (R46) -/

theorem fetchRaw_eq_hang_iff {w w' : Work} : fetchRaw w = .hang w' ↔ nextDraw w.bus = .never ∧ w' = w.afterRead := by
  obtain ⟨hd, h⟩ | ⟨_, hd, _, h⟩ | ⟨_, hd, _, _, h⟩ | ⟨_, hd, _, _, h⟩ := fetchRaw_cases w <;>
    simp [h, hd, eq_comm]

/-- Only a sub-operation that itself waits leaves a sequence waiting, where what follows it reads the bus no more. -/
theorem bind_eq_hang_iff {α β : Type} {r : Res α} {k : α → Work → Res β} (hk : ∀ v w w', k v w ≠ .hang w')
    {w' : Work} : r.bind k = .hang w' ↔ r = .hang w' := by
  cases r with
  | ok v w => simp [hk]
  | raise f w => simp
  | hang w => simp

theorem storeReading_ne_hang (raw : RawWord) (w w' : Work) : storeReading raw w ≠ .hang w' := by
  obtain ⟨_, _, _, h⟩ | ⟨_, h⟩ := storeReading_cases raw w <;> simp [h]

theorem storeStatus_ne_hang (raw : RawWord) (w w' : Work) : storeStatus raw w ≠ .hang w' := by
  simp [storeStatus]

theorem calibrateValue_eq_hang_iff {w w' : Work} :
    calibrateValue w = .hang w' ↔ w.regs.outputCounts = none ∧ fetchRaw w = .hang w' := by
  have hcalibrate : calibrateValue w = .hang w' ↔ currentCounts w = .hang w' := by
    rw [calibrateValue, bind_eq_hang_iff (by simp), calibrate, bind_eq_hang_iff (by simp)]
  rw [hcalibrate]
  cases hc : w.regs.outputCounts with
  | some c => simp [currentCounts_some w c hc]
  | none =>
    rw [currentCounts_none w hc, bind_eq_hang_iff (by simp), takeReading_none, bind_eq_hang_iff storeReading_ne_hang]
    simp

/-- On an instance a command waits exactly where it reads the bus and no answer comes, no register written yet (R46). -/
theorem bodyOf_eq_hang_iff {i : Instr} {w w' : Work} :
    bodyOf i w = .hang w'
      ↔ nextDraw w.bus = .never ∧ (busReadOf i (.constructed w.regs)).isSome = true ∧ w' = w.afterRead := by
  cases i with
  | fetchRaw => simp [bodyOf, busReadOf, bind_eq_hang_iff, fetchRaw_eq_hang_iff]
  | getPressureB =>
    simp [bodyOf, busReadOf, getPressure, takeReading, bind_eq_hang_iff, storeReading_ne_hang, fetchRaw_eq_hang_iff]
  | getStatusB =>
    simp [bodyOf, busReadOf, statusValue, getStatus, bind_eq_hang_iff, storeStatus_ne_hang, fetchRaw_eq_hang_iff]
  | calibrate =>
    simp [bodyOf, busReadOf, calibrateValue_eq_hang_iff, fetchRaw_eq_hang_iff]
    tauto
  | construct addr maxp autocal => simp [bodyOf, busReadOf]
  | decodeCounts raw => simp [bodyOf, busReadOf]
  | decodeStatus raw => simp [bodyOf, busReadOf]
  | getPressureR raw => simp [bodyOf, busReadOf, getPressure_some_ne_hang]
  | getStatusR raw => simp [bodyOf, busReadOf, statusValue_some_ne_hang]
  | discard => simp [bodyOf, busReadOf]

/-- An instance reads the bus at its own address (R113). -/
theorem eq_busAddr_of_busReadOf {i : Instr} {g : Regs} {a : BusAddr} (h : busReadOf i (.constructed g) = some a) :
    a = g.busAddr := by
  cases i with
  | fetchRaw | getPressureB | getStatusB => exact (Option.some.inj h).symm
  | calibrate =>
    obtain ⟨_, ha⟩ : g.outputCounts = none ∧ g.busAddr = a := by simpa [busReadOf] using h
    exact ha.symm
  | construct | decodeCounts | decodeStatus | getPressureR | getStatusR | discard => cases h

/-- Without an instance only an accepted CONSTRUCT with auto-calibration reads the bus (R113). -/
theorem eq_construct_of_busReadOf {i : Instr} {a : BusAddr} (h : busReadOf i .unconstructed = some a) :
    ∃ maxp, 0 < maxp.toInt ∧ i = .construct a maxp true := by
  cases i with
  | construct addr maxp autocal =>
    obtain ⟨⟨hpos, rfl⟩, rfl⟩ : (0 < maxp.toInt ∧ autocal = true) ∧ addr = a := by simpa [busReadOf] using h
    exact ⟨maxp, hpos, rfl⟩
  | fetchRaw | decodeCounts | decodeStatus | getPressureR | getPressureB | getStatusR | getStatusB | calibrate
  | discard => cases h

/-- A command whose bus read is never answered stays in progress, only the request recorded (R46; log entry 4). -/
theorem exec_of_never {s : State} {i : Instr} {a : BusAddr} (hread : busReadOf i s.block = some a)
    (hdraw : nextDraw s.bus = .never) : exec i s = .next { s.withRead a with waiting := some i } := by
  cases hb : s.block with
  | unconstructed =>
    rw [hb] at hread
    obtain ⟨maxp, hpos, rfl⟩ := eq_construct_of_busReadOf hread
    exact exec_construct_autocal_of_never hb a hpos hdraw
  | constructed g =>
    rw [hb] at hread
    have hi : i ≠ .discard := by rintro rfl; simp [busReadOf] at hread
    have hhang := (bodyOf_eq_hang_iff (i := i) (w := { regs := g, bus := s.bus })).2 ⟨hdraw, by simp [hread], rfl⟩
    rw [exec_of_constructed hb hi, hhang, eq_busAddr_of_busReadOf hread]
    rfl

/-! ## The one response (R80, R204) -/

/-- `t` is `s` with one response of a command given, in a state that differs from `s` in the block and the bus alone. -/
def Answers (i : Instr) (s t : State) : Prop :=
  ∃ u r, t = respond (opcode i) r u ∧ u.inputs = s.inputs ∧ u.waiting = s.waiting ∧ u.responses = s.responses

theorem finish_answers (i : Instr) (s : State) {r : Res Value} (h : ∀ w, r ≠ .hang w) : Answers i s (finish i s r) := by
  cases r with
  | ok v w => exact ⟨_, _, rfl, rfl, rfl, rfl⟩
  | raise f w => exact ⟨_, _, rfl, rfl, rfl, rfl⟩
  | hang w => exact absurd rfl (h w)

theorem finishConstruct_answers (i : Instr) (s : State) {r : Res Counts} (h : ∀ w, r ≠ .hang w) :
    Answers i s (finishConstruct i s r) := by
  cases r with
  | ok v w => exact ⟨_, _, rfl, rfl, rfl, rfl⟩
  | raise f w => exact ⟨_, _, rfl, rfl, rfl, rfl⟩
  | hang w => exact absurd rfl (h w)

theorem calibrate_ne_hang {w : Work} (h : nextDraw w.bus ≠ .never) (w' : Work) : calibrate w ≠ .hang w' := by
  intro hhang
  have hvalue : calibrateValue w = .hang w' := by rw [calibrateValue, hhang, Res.bind_hang]
  obtain ⟨_, hfetch⟩ := calibrateValue_eq_hang_iff.1 hvalue
  obtain ⟨hdraw, _⟩ := fetchRaw_eq_hang_iff.1 hfetch
  exact h hdraw

theorem exec_construct_answers {s : State} (h : s.block = .unconstructed) (addr : BusAddr) (maxp : RatedPressure)
    (autocal : Bool) (hread : busReadOf (.construct addr maxp autocal) .unconstructed = none ∨ nextDraw s.bus ≠ .never) :
    ∃ t, exec (.construct addr maxp autocal) s = .next t ∧ Answers (.construct addr maxp autocal) s t := by
  rcases Int.lt_or_le 0 maxp.toInt with hpos | hnonpos
  · cases autocal with
    | false => exact ⟨_, exec_construct_of_pos h addr hpos false, _, _, rfl, rfl, rfl, rfl⟩
    | true =>
      have hdraw : nextDraw s.bus ≠ .never := hread.resolve_left (by simp [busReadOf, hpos])
      exact ⟨_, exec_construct_autocal h addr hpos, finishConstruct_answers _ s (calibrate_ne_hang hdraw)⟩
  · have hexec : exec (.construct addr maxp autocal) s = .next (respond 0#3 (.fail .invalidConfiguration) s) := by
      simp [exec, execConstruct, h, hnonpos, opcode]
    exact ⟨_, hexec, s, _, rfl, rfl, rfl, rfl⟩

/-- Without an instance a command that needs one is answered by its refusal (R186). -/
theorem onConstructed_answers {s : State} (h : s.block = .unconstructed) (i : Instr) (body : Work → Res Value) :
    Answers i s (onConstructed i body s) :=
  ⟨s, _, onConstructed_unconstructed i body s h, rfl, rfl, rfl⟩

/-- A command that does not wait for the bus is answered. -/
theorem exec_answers {i : Instr} {s : State} (hread : busReadOf i s.block = none ∨ nextDraw s.bus ≠ .never) :
    ∃ t, exec i s = .next t ∧ Answers i s t := by
  cases hb : s.block with
  | constructed g =>
    rw [hb] at hread
    by_cases hi : i = .discard
    · subst hi
      exact ⟨_, rfl, _, _, rfl, rfl, rfl, rfl⟩
    · refine ⟨_, exec_of_constructed hb hi, finish_answers i s fun w hhang => ?_⟩
      obtain ⟨hnever, hsome, _⟩ := bodyOf_eq_hang_iff.1 hhang
      rcases hread with hnone | hdraw
      · simp [hnone] at hsome
      · exact hdraw hnever
  | unconstructed =>
    rw [hb] at hread
    cases i with
    | construct addr maxp autocal => exact exec_construct_answers hb addr maxp autocal hread
    | decodeCounts raw => exact ⟨_, rfl, _, _, rfl, rfl, rfl, rfl⟩
    | decodeStatus raw => exact ⟨_, rfl, _, _, rfl, rfl, rfl, rfl⟩
    | discard => exact ⟨_, rfl, _, _, rfl, rfl, rfl, rfl⟩
    | fetchRaw => exact ⟨_, rfl, onConstructed_answers hb _ _⟩
    | getPressureR raw => exact ⟨_, rfl, onConstructed_answers hb _ _⟩
    | getPressureB => exact ⟨_, rfl, onConstructed_answers hb _ _⟩
    | getStatusR raw => exact ⟨_, rfl, onConstructed_answers hb _ _⟩
    | getStatusB => exact ⟨_, rfl, onConstructed_answers hb _ _⟩
    | calibrate => exact ⟨_, rfl, onConstructed_answers hb _ _⟩

/-- The two ways a command ends. -/
theorem exec_ends (i : Instr) (s : State) :
    ∃ t, exec i s = .next t ∧ (Answers i s t
      ∨ (nextDraw s.bus = .never
        ∧ ∃ a, busReadOf i s.block = some a ∧ t = { s.withRead a with waiting := some i })) := by
  cases hread : busReadOf i s.block with
  | none =>
    obtain ⟨t, hexec, hanswers⟩ := exec_answers (.inl hread)
    exact ⟨t, hexec, .inl hanswers⟩
  | some a =>
    by_cases hdraw : nextDraw s.bus = .never
    · exact ⟨_, exec_of_never hread hdraw, .inr ⟨hdraw, a, rfl, rfl⟩⟩
    · obtain ⟨t, hexec, hanswers⟩ := exec_answers (i := i) (.inr hdraw)
      exact ⟨t, hexec, .inl hanswers⟩

/-- A command that reads the bus claims it while it waits: on an instance, or as a CONSTRUCT past its checks (R23). -/
theorem busClaim_of_busReadOf {i : Instr} {t : State} {a : BusAddr} (h : busReadOf i t.block = some a)
    (hwaiting : t.waiting = some i) : busClaim t = true := by
  cases hb : t.block with
  | constructed g => exact busClaim_of_constructed hb
  | unconstructed =>
    rw [hb] at h
    obtain ⟨maxp, _, rfl⟩ := eq_construct_of_busReadOf h
    exact (busClaim_iff_of_unconstructed hb).2 ⟨_, _, _, hwaiting⟩

theorem step_of_waiting {s : State} {i : Instr} (hwaiting : s.waiting = some i)
    (hinputs : ∀ rest, s.inputs ≠ .reset :: rest) : step s = .fault .busHang := by
  have hready : cmdReady s = false := by simp [cmdReady, hwaiting]
  cases hin : s.inputs with
  | nil => simp [step, hin, hready]
  | cons input rest =>
    cases input with
    | command w => simp [step, hin, hready]
    | reset => exact absurd hin (hinputs rest)

end Sys2Proof.Machine

open Sys2Proof Sys2Proof.Machine

/-- Settles O11: the body of a command that reads the bus waits, its registers unwritten; then `step` takes `rst` only. -/
theorem unansweredReadHangs : Obligations.UnansweredReadHangs := by
  refine ⟨fun s i a hread hdraw => ⟨_, exec_of_never hread hdraw, rfl, rfl, busClaim_of_busReadOf hread rfl⟩, ?_⟩
  exact fun s i hwaiting hinputs => step_of_waiting hwaiting hinputs

/-- Settles O13: a command is answered in the state it leaves, or waits where its read meets no answer. -/
theorem eachCommandIsAnsweredOnce : Obligations.EachCommandIsAnsweredOnce := by
  intro i s
  obtain ⟨t, hexec, ⟨u, r, rfl, hinputs, hwaiting, hresponses⟩ | ⟨hdraw, a, hread, rfl⟩⟩ := exec_ends i s
  · exact ⟨_, hexec, hinputs, .inl ⟨hwaiting, r, by rw [respond_responses, hresponses, respond_block]⟩⟩
  · exact ⟨_, hexec, rfl, .inr ⟨hdraw, by rw [hread, Option.isSome_some], rfl, rfl, rfl⟩⟩

end


section
/-! What a command writes to the registers of an instance (10_state.md R29): every way said once, and from it the write
matrix (R97) and the valid bits (R90). -/

namespace Sys2Proof.Machine

/-! ## The ways a command writes registers -/

/-- The commands that take a reading's counts (R140, R161). -/
def TakesCounts (i : Instr) : Prop := i = .calibrate ∨ i = .getPressureB ∨ ∃ raw, i = .getPressureR raw

/-- The commands that take a reading's status (R145). -/
def TakesStatus (i : Instr) : Prop := i = .getStatusB ∨ ∃ raw, i = .getStatusR raw

/-- `Writes i g g'`: a command on an instance with registers `g` can leave `g'` (R29). -/
inductive Writes (i : Instr) (g : Regs) : Regs → Prop where
  | nothing : Writes i g g
  | counts (h : TakesCounts i) (c : Counts) : Writes i g (g.setCounts c)
  | pressure (h : TakesCounts i) (c : Counts) (p : Pressure) : Writes i g ((g.setCounts c).setPressure p)
  | status (h : TakesStatus i) (x : StatusCode) : Writes i g (g.setStatus x)
  | cachedZero (h : i = .calibrate) (c : Counts) (hc : g.outputCounts = some c) : Writes i g (g.setZero c)
  | firstZero (h : i = .calibrate) (c : Counts) (p : Pressure) :
      Writes i g (((g.setCounts c).setPressure p).setZero c)

/-- The registers a sub-operation leaves, however it ends. -/
def Res.regs {α : Type} : Res α → Regs
  | .ok _ w => w.regs
  | .raise _ w => w.regs
  | .hang w => w.regs

@[simp] theorem Res.regs_ok {α : Type} (v : α) (w : Work) : (Res.ok v w).regs = w.regs := rfl
@[simp] theorem Res.regs_raise {α : Type} (f : Failure) (w : Work) : (Res.raise f w : Res α).regs = w.regs := rfl
@[simp] theorem Res.regs_hang {α : Type} (w : Work) : (Res.hang w : Res α).regs = w.regs := rfl

/-- A continuation that writes no register leaves the registers as the sub-operation before it did. -/
theorem Res.regs_bind {α β : Type} (r : Res α) {k : α → Work → Res β} (hk : ∀ v w, (k v w).regs = w.regs) :
    (r.bind k).regs = r.regs := by
  cases r with
  | ok v w => exact hk v w
  | raise f w => rfl
  | hang w => rfl

/-- No register is written before the raw reading is at hand (R111, R140, R145). -/
theorem rawOrFetch_cases (r : Option RawWord) (w : Work) :
    (∃ raw b, rawOrFetch r w = .ok raw { regs := w.regs, bus := b })
      ∨ (∃ f b, rawOrFetch r w = .raise f { regs := w.regs, bus := b })
      ∨ (∃ b, rawOrFetch r w = .hang { regs := w.regs, bus := b }) := by
  cases r with
  | some raw => exact .inl ⟨raw, w.bus, rfl⟩
  | none =>
    rw [rawOrFetch_none]
    obtain ⟨_, h⟩ | ⟨_, _, _, h⟩ | ⟨_, _, _, _, h⟩ | ⟨_, _, _, _, h⟩ := fetchRaw_cases w
    · exact .inr (.inr ⟨_, h⟩)
    · exact .inr (.inl ⟨_, _, h⟩)
    · exact .inr (.inl ⟨_, _, h⟩)
    · exact .inl ⟨_, _, h⟩

theorem getPressure_writes {i : Instr} (hi : TakesCounts i) (r : Option RawWord) (w : Work) :
    Writes i w.regs (getPressure r w).regs := by
  rw [getPressure, Res.regs_bind _ fun _ _ => rfl, takeReading]
  obtain ⟨raw, b, h⟩ | ⟨_, _, h⟩ | ⟨_, h⟩ := rawOrFetch_cases r w <;> rw [h]
  · obtain ⟨_, p, _, hstore⟩ | ⟨_, hstore⟩ := storeReading_cases raw { regs := w.regs, bus := b }
    · rw [Res.bind_ok, hstore]
      exact .pressure hi _ p
    · rw [Res.bind_ok, hstore]
      exact .counts hi _
  · exact .nothing
  · exact .nothing

theorem statusValue_writes {i : Instr} (hi : TakesStatus i) (r : Option RawWord) (w : Work) :
    Writes i w.regs (statusValue r w).regs := by
  rw [statusValue, Res.regs_bind _ fun _ _ => rfl, getStatus]
  obtain ⟨raw, b, h⟩ | ⟨_, _, h⟩ | ⟨_, h⟩ := rawOrFetch_cases r w <;> rw [h]
  · exact .status hi (statusOf raw)
  · exact .nothing
  · exact .nothing

theorem calibrateValue_writes (w : Work) : Writes .calibrate w.regs (calibrateValue w).regs := by
  rw [calibrateValue, Res.regs_bind _ fun _ _ => rfl, calibrate]
  cases hc : w.regs.outputCounts with
  | some c =>
    rw [currentCounts_some w c hc]
    exact .cachedZero rfl c hc
  | none =>
    rw [currentCounts_none w hc, takeReading]
    obtain ⟨raw, b, h⟩ | ⟨_, _, h⟩ | ⟨_, h⟩ := rawOrFetch_cases none w <;> rw [h]
    · obtain ⟨_, p, _, hstore⟩ | ⟨_, hstore⟩ := storeReading_cases raw { regs := w.regs, bus := b }
      · rw [Res.bind_ok, hstore]
        exact .firstZero rfl _ p
      · rw [Res.bind_ok, hstore]
        exact .counts (.inl rfl) _
    · exact .nothing
    · exact .nothing

theorem bodyOf_writes (i : Instr) (w : Work) : Writes i w.regs (bodyOf i w).regs := by
  cases i with
  | fetchRaw =>
    rw [bodyOf, Res.regs_bind _ fun _ _ => rfl]
    obtain ⟨raw, b, h⟩ | ⟨_, _, h⟩ | ⟨_, h⟩ := rawOrFetch_cases none w <;>
      rw [← rawOrFetch_none, h] <;>
      exact .nothing
  | getPressureR raw => exact getPressure_writes (.inr (.inr ⟨raw, rfl⟩)) (some raw) w
  | getPressureB => exact getPressure_writes (.inr (.inl rfl)) none w
  | getStatusR raw => exact statusValue_writes (.inr ⟨raw, rfl⟩) (some raw) w
  | getStatusB => exact statusValue_writes (.inl rfl) none w
  | calibrate => exact calibrateValue_writes w
  | construct addr maxp autocal => exact .nothing
  | decodeCounts raw => exact .nothing
  | decodeStatus raw => exact .nothing
  | discard => exact .nothing

/-- Every command but DISCARD leaves an instance, its registers written in one of the ways named (R29, R97). -/
theorem exec_writes {s t : State} {g : Regs} {i : Instr} (h : s.block = .constructed g) (hexec : exec i s = .next t)
    (hi : i ≠ .discard) : ∃ g', t.block = .constructed g' ∧ Writes i g g' := by
  have hwrites := bodyOf_writes i { regs := g, bus := s.bus }
  rw [exec_of_constructed h hi] at hexec
  cases hr : bodyOf i { regs := g, bus := s.bus } with
  | ok v w =>
    rw [hr] at hexec hwrites
    cases hexec
    exact ⟨_, rfl, hwrites⟩
  | raise f w =>
    rw [hr] at hexec hwrites
    cases hexec
    exact ⟨_, rfl, hwrites⟩
  | hang w =>
    rw [hr] at hexec
    cases hexec
    exact ⟨g, h, .nothing⟩

/-! ## What the ways have in common -/

theorem Writes.identity {i : Instr} {g g' : Regs} (h : Writes i g g') :
    g'.busAddr = g.busAddr ∧ g'.maxPressure = g.maxPressure := by
  cases h <;> exact ⟨rfl, rfl⟩

theorem Writes.zero {i : Instr} {g g' : Regs} (h : Writes i g g') (hi : i ≠ .calibrate) :
    g'.outputMin = g.outputMin ∧ g'.calibrated = g.calibrated := by
  cases h with
  | cachedZero h | firstZero h => exact absurd h hi
  | nothing | counts | pressure | status => exact ⟨rfl, rfl⟩

theorem Writes.reading {i : Instr} {g g' : Regs} (h : Writes i g g') (hi : ¬ TakesCounts i) :
    g'.outputCounts = g.outputCounts ∧ g'.pressure = g.pressure := by
  cases h with
  | counts h | pressure h => exact absurd h hi
  | cachedZero h | firstZero h => exact absurd (.inl h) hi
  | nothing | status => exact ⟨rfl, rfl⟩

theorem Writes.statusReg {i : Instr} {g g' : Regs} (h : Writes i g g') (hi : ¬ TakesStatus i) : g'.status = g.status := by
  cases h with
  | status h => exact absurd h hi
  | nothing | counts | pressure | cachedZero | firstZero => rfl

/-- A register is written with a value, never back to none, and `calibrated` never back to 0 (R90). -/
theorem Writes.validBits {i : Instr} {g g' : Regs} (h : Writes i g g') :
    (g.outputCounts.isSome = true → g'.outputCounts.isSome = true)
      ∧ (g.pressure.isSome = true → g'.pressure.isSome = true)
      ∧ (g.status.isSome = true → g'.status.isSome = true) ∧ (g.calibrated = true → g'.calibrated = true) := by
  cases h <;> simp

/-- Without an instance every command but CONSTRUCT leaves none (R97). -/
theorem exec_block_of_unconstructed {s t : State} {i : Instr} (h : s.block = .unconstructed) (hexec : exec i s = .next t)
    (hi : ∀ a m b, i ≠ .construct a m b) : t.block = .unconstructed := by
  cases i with
  | construct addr maxp autocal => exact absurd rfl (hi addr maxp autocal)
  | decodeCounts raw => cases hexec; exact h
  | decodeStatus raw => cases hexec; exact h
  | discard => cases hexec; rfl
  | fetchRaw | getPressureR | getPressureB | getStatusR | getStatusB | calibrate =>
    cases hexec
    exact (congrArg State.block (onConstructed_unconstructed _ _ s h)).trans h

end Sys2Proof.Machine

open Sys2Proof Sys2Proof.Machine

/-- Settles O40: each way of writing registers belongs to the commands named; without an instance none is written. -/
theorem onlyTheNamedCommandsWriteARegister : Obligations.OnlyTheNamedCommandsWriteARegister := by
  refine ⟨fun s t g i hb hexec hi => ?_, fun s t i hb hexec hi => exec_block_of_unconstructed hb hexec hi⟩
  obtain ⟨g', hb', hwrites⟩ := exec_writes hb hexec hi
  obtain ⟨haddr, hmaxp⟩ := hwrites.identity
  refine ⟨g', hb', haddr, hmaxp, hwrites.zero, fun hcal hbus hraw => hwrites.reading ?_,
    fun hbus hraw => hwrites.statusReg ?_⟩
  · rintro (h | h | ⟨raw, h⟩)
    exacts [hcal h, hbus h, hraw raw h]
  · rintro (h | ⟨raw, h⟩)
    exacts [hbus h, hraw raw h]

/-- Settles O41: no way of writing registers clears a valid bit. -/
theorem validBitsAreNeverClearedAlone : Obligations.ValidBitsAreNeverClearedAlone := by
  intro s t g i hb hexec hi
  obtain ⟨g', hb', hwrites⟩ := exec_writes hb hexec hi
  exact ⟨g', hb', hwrites.validBits⟩

end

section
/-! The invariant of the machine (10_state.md R25, R26): it holds after reset, and every step keeps it. -/

namespace Sys2Proof.Machine

/-! ## The registers of an instance (R25) -/

/-- Storing counts keeps R25: they are what calibration and pressure ask for. -/
theorem Regs.Inv.setCounts {g : Regs} (h : g.Inv) (c : Counts) : (g.setCounts c).Inv := by
  obtain ⟨hmaxp, _, hzero, _, _⟩ := h
  exact ⟨hmaxp, by simp, hzero, by simp, by simp⟩

theorem Regs.Inv.setPressure {g : Regs} (h : g.Inv) (hc : g.outputCounts.isSome = true) (p : Pressure) :
    (g.setPressure p).Inv := by
  obtain ⟨hmaxp, _, hzero, _, _⟩ := h
  exact ⟨hmaxp, by simp [hc], hzero, by simp [hc], by simp [hc]⟩

theorem Regs.Inv.setStatus {g : Regs} (h : g.Inv) (x : StatusCode) : (g.setStatus x).Inv := h

/-- A calibration keeps R25 where counts are stored. -/
theorem Regs.Inv.setZero {g : Regs} (h : g.Inv) (hc : g.outputCounts.isSome = true) (m : Counts) : (g.setZero m).Inv := by
  obtain ⟨hmaxp, _, _, _, _⟩ := h
  exact ⟨hmaxp, by simp [hc], by simp, by simp [hc], by simp [hc]⟩

/-- Every way of writing registers keeps R25. -/
theorem Writes.inv {i : Instr} {g g' : Regs} (hwrites : Writes i g g') (h : g.Inv) : g'.Inv := by
  cases hwrites with
  | nothing => exact h
  | counts _ c => exact h.setCounts c
  | pressure _ c p => exact (h.setCounts c).setPressure rfl p
  | status _ x => exact h.setStatus x
  | cachedZero _ c hc => exact h.setZero (by simp [hc]) c
  | firstZero _ c p => exact ((h.setCounts c).setPressure rfl p).setZero rfl c

/-- The construction values meet R25 where the configuration check passed (R92, R93). -/
theorem freshRegs_inv (addr : BusAddr) {maxp : RatedPressure} (h : 0 < maxp.toInt) : (freshRegs addr maxp).Inv :=
  ⟨h, by simp [freshRegs], fun _ => rfl, fun _ => ⟨rfl, rfl, rfl⟩, by simp [freshRegs]⟩

/-- With counts, a calibration and a pressure recorded R25 asks for the rated pressure alone. -/
theorem Regs.Inv.calibratedAt {g : Regs} (h : g.Inv) (c : Counts) : (g.calibratedAt c).Inv :=
  ((h.setCounts c).setPressure rfl _).setZero rfl c

/-! ## The block after a command -/

theorem exec_construct_blockInv {s t : State} (h : s.block = .unconstructed) {addr : BusAddr} {maxp : RatedPressure}
    {autocal : Bool} (hexec : exec (.construct addr maxp autocal) s = .next t) : t.block.Inv := by
  rcases Int.lt_or_le 0 maxp.toInt with hpos | hnonpos
  · cases autocal with
    | false =>
      rw [exec_construct_plain h addr hpos] at hexec
      cases hexec
      exact freshRegs_inv addr hpos
    | true =>
      rcases nextDraw_cases s.bus with hdraw | ⟨raw, hread⟩ | ⟨f, hread⟩
      · rw [exec_construct_autocal_of_never h addr hpos hdraw] at hexec
        cases hexec
        simp [h]
      · rw [exec_construct_autocal_of_readsWord h addr hpos hread] at hexec
        cases hexec
        exact (freshRegs_inv addr hpos).calibratedAt _
      · rw [exec_construct_autocal_of_readFails h addr hpos hread] at hexec
        cases hexec
        simp [h]
  · rw [exec_construct_of_nonpos h addr hnonpos] at hexec
    cases hexec
    simp [h]

theorem exec_blockInv {s t : State} {i : Instr} (h : s.block.Inv) (hexec : exec i s = .next t) : t.block.Inv := by
  cases hb : s.block with
  | constructed g =>
    by_cases hi : i = .discard
    · subst hi
      cases hexec
      exact blockInv_unconstructed
    · obtain ⟨g', hb', hwrites⟩ := exec_writes hb hexec hi
      rw [hb, blockInv_constructed] at h
      rw [hb', blockInv_constructed]
      exact hwrites.inv h
  | unconstructed =>
    by_cases hi : ∃ a m b, i = .construct a m b
    · obtain ⟨addr, maxp, autocal, rfl⟩ := hi
      exact exec_construct_blockInv hb hexec
    · rw [exec_block_of_unconstructed hb hexec fun a m b h => hi ⟨a, m, b, h⟩]
      exact blockInv_unconstructed

/-! ## The command in progress and the bus requests -/

/-- A command that reads the bus is one that may wait for it (R113). -/
theorem waitingInv_of_busReadOf {i : Instr} {b : Block} {a : BusAddr} (h : busReadOf i b = some a) : waitingInv b i := by
  cases b with
  | unconstructed =>
    obtain ⟨maxp, hpos, rfl⟩ := eq_construct_of_busReadOf h
    exact ⟨rfl, hpos, rfl⟩
  | constructed g =>
    cases i with
    | fetchRaw | getPressureB | getStatusB => exact life_constructed g
    | calibrate =>
      obtain ⟨hcounts, _⟩ : g.outputCounts = none ∧ g.busAddr = a := by simpa [busReadOf] using h
      exact ⟨life_constructed g, hcounts⟩
    | construct | decodeCounts | decodeStatus | getPressureR | getStatusR | discard => cases h

theorem requestsInv_afterReadIf {b : Bus} (h : requestsInv b.requests) (a : Option BusAddr) :
    requestsInv (b.afterReadIf a).requests := by
  cases a with
  | none => exact h
  | some a =>
    intro q hq
    rcases List.mem_append.1 hq with hold | hnew
    · exact h q hold
    · rw [List.mem_singleton.1 hnew]
      exact ⟨rfl, rfl⟩

/-! ## The step -/

theorem exec_inv {s t : State} {i : Instr} (h : s.Inv) (hwaiting : s.waiting = none) (hexec : exec i s = .next t) :
    t.Inv := by
  obtain ⟨hblock, _, hrequests⟩ := h
  obtain ⟨u, hu, hbus⟩ := exec_bus i s
  obtain ⟨v, hv, hends⟩ := exec_ends i s
  obtain rfl : t = u := Host.Outcome.next.inj (hexec.symm.trans hu)
  obtain rfl : t = v := Host.Outcome.next.inj (hexec.symm.trans hv)
  refine ⟨exec_blockInv hblock hexec, ?_, hbus ▸ requestsInv_afterReadIf hrequests _⟩
  obtain ⟨u, r, rfl, _, hw, _⟩ | ⟨_, a, hread, rfl⟩ := hends
  · simp [hw, hwaiting]
  · rintro j ⟨⟩
    exact waitingInv_of_busReadOf hread

theorem accept_inv {s t : State} {w : CmdWord} (h : s.Inv) (hwaiting : s.waiting = none)
    (hstep : accept w s = .next t) : t.Inv := by
  cases hd : decode w with
  | instr i =>
    rw [accept, hd] at hstep
    exact exec_inv h hwaiting hstep
  | illegal why =>
    rw [accept, hd] at hstep
    cases hstep
    exact h

theorem resetBlock_inv {s : State} (h : s.Inv) : (resetBlock s).Inv := by
  obtain ⟨_, _, hrequests⟩ := h
  exact ⟨blockInv_unconstructed, by simp, hrequests⟩

/-- Only `rst` is taken while a command waits (R232). -/
theorem waiting_eq_none_of_step {s t : State} (hstep : step s = .next t)
    (hinputs : ∀ rest, s.inputs ≠ .reset :: rest) : s.waiting = none := by
  cases hw : s.waiting with
  | none => rfl
  | some i =>
    rw [step_of_waiting hw hinputs] at hstep
    cases hstep

theorem step_of_idle {s : State} (hwaiting : s.waiting = none) (hinputs : s.inputs = []) : step s = .next s := by
  simp [step, hinputs, cmdReady_of_idle hwaiting]

theorem step_inv {s t : State} (h : s.Inv) (hstep : step s = .next t) : t.Inv := by
  cases hinputs : s.inputs with
  | nil =>
    rw [step_of_idle (waiting_eq_none_of_step hstep (by simp [hinputs])) hinputs] at hstep
    cases hstep
    exact h
  | cons input rest =>
    cases input with
    | reset =>
      rw [step_of_reset hinputs] at hstep
      cases hstep
      exact resetBlock_inv (s := { s with inputs := rest }) h
    | command w =>
      have hwaiting := waiting_eq_none_of_step hstep (by simp [hinputs])
      rw [step_of_command hwaiting hinputs] at hstep
      exact accept_inv (s := { s with inputs := rest }) h hwaiting hstep

end Sys2Proof.Machine

open Sys2Proof Sys2Proof.Machine

/-- Settles O14: after reset there is no instance, no command in progress and no bus request. -/
theorem resetMeetsTheInvariant : Obligations.ResetMeetsTheInvariant :=
  ⟨blockInv_unconstructed, by simp [State.reset], by simp [State.reset, requestsInv]⟩

/-- Settles O15: every way of writing registers keeps R25, a command waits only where it reads the bus, and each read adds
one request of the one form. -/
theorem stepKeepsTheInvariant : Obligations.StepKeepsTheInvariant :=
  fun _ _ => step_inv

/-- Settles O8: an idle block accepts the word, and what decodes is executed. -/
theorem stepRunsTheDecodedInstruction : Obligations.StepRunsTheDecodedInstruction := by
  intro s w rest i hwaiting hinputs hdecode
  rw [step_of_command hwaiting hinputs, accept, hdecode]

/-- Settles O10: an idle block takes no input where none is presented. -/
theorem idleBlockHoldsItsState : Obligations.IdleBlockHoldsItsState :=
  fun _ => step_of_idle

end


section
/-! Two instances side by side: a relation between them that the named operations keep is kept by every command, and the two
answer alike (10_state.md sections 2 and 4). -/

namespace Sys2Proof.Machine

/-! ## Relations every command keeps -/

/-- A relation between two instances that meet the same draws and compute with the same registers, kept by the bus read and
by each register write. -/
structure Simulation (R : Work → Work → Prop) : Prop where
  draw {w w' : Work} : R w w' → nextDraw w'.bus = nextDraw w.bus
  read {w w' : Work} : R w w' → R w.afterRead w'.afterRead
  operands {w w' : Work} : R w w' → w'.regs.maxPressure = w.regs.maxPressure ∧ w'.regs.outputMin = w.regs.outputMin
    ∧ w'.regs.outputCounts = w.regs.outputCounts
  setCounts {w w' : Work} (c : Counts) : R w w' →
    R { w with regs := w.regs.setCounts c } { w' with regs := w'.regs.setCounts c }
  setPressure {w w' : Work} (p : Pressure) : R w w' →
    R { w with regs := w.regs.setPressure p } { w' with regs := w'.regs.setPressure p }
  setStatus {w w' : Work} (x : StatusCode) : R w w' →
    R { w with regs := w.regs.setStatus x } { w' with regs := w'.regs.setStatus x }
  setZero {w w' : Work} (m : Counts) : R w w' →
    R { w with regs := w.regs.setZero m } { w' with regs := w'.regs.setZero m }

/-- Two sub-operations end alike, in related instances. -/
inductive Res.Rel {α : Type} (R : Work → Work → Prop) : Res α → Res α → Prop where
  | ok (v : α) {w w' : Work} (h : R w w') : Rel R (.ok v w) (.ok v w')
  | raise (f : Failure) {w w' : Work} (h : R w w') : Rel R (.raise f w) (.raise f w')
  | hang {w w' : Work} (h : R w w') : Rel R (.hang w) (.hang w')

theorem Res.Rel.bind {α β : Type} {R : Work → Work → Prop} {r r' : Res α} {k : α → Work → Res β} (h : Res.Rel R r r')
    (hk : ∀ v w w', R w w' → Res.Rel R (k v w) (k v w')) : Res.Rel R (r.bind k) (r'.bind k) := by
  cases h with
  | ok v h => exact hk v _ _ h
  | raise f h => exact .raise f h
  | hang h => exact .hang h

/-- What follows computes with the value alone. -/
theorem Res.Rel.map {α β : Type} {R : Work → Work → Prop} {r r' : Res α} (h : Res.Rel R r r') (f : α → β) :
    Res.Rel R (r.bind fun v w => .ok (f v) w) (r'.bind fun v w => .ok (f v) w) :=
  h.bind fun v _ _ hR => .ok (f v) hR

section
variable {R : Work → Work → Prop} (hsim : Simulation R) {w w' : Work}
include hsim

theorem fetchRaw_rel (h : R w w') : Res.Rel R (fetchRaw w) (fetchRaw w') := by
  have hdraw := hsim.draw h
  obtain ⟨hd, hr⟩ | ⟨rsp, hd, he, hr⟩ | ⟨rsp, hd, he, hk, hr⟩ | ⟨rsp, hd, he, hk, hr⟩ := fetchRaw_cases w <;>
    rw [hd] at hdraw <;> rw [hr]
  · rw [fetchRaw_never w' hdraw]
    exact .hang (hsim.read h)
  · rw [fetchRaw_err w' rsp hdraw he]
    exact .raise _ (hsim.read h)
  · rw [fetchRaw_short w' rsp hdraw he hk]
    exact .raise _ (hsim.read h)
  · rw [fetchRaw_full w' rsp hdraw he hk]
    exact .ok _ (hsim.read h)

theorem rawOrFetch_rel (r : Option RawWord) (h : R w w') : Res.Rel R (rawOrFetch r w) (rawOrFetch r w') := by
  cases r with
  | some raw => exact .ok raw h
  | none => exact fetchRaw_rel hsim h

theorem storeReading_rel (raw : RawWord) (h : R w w') : Res.Rel R (storeReading raw w) (storeReading raw w') := by
  have hcounts := hsim.setCounts (countsOf raw) h
  obtain ⟨hmaxp, hmin, _⟩ := hsim.operands h
  obtain ⟨hne, p, hp, hr⟩ | ⟨heq, hr⟩ := storeReading_cases raw w <;>
    obtain ⟨hne', p', hp', hr'⟩ | ⟨heq', hr'⟩ := storeReading_cases raw w'
  · obtain rfl : p = p' := Option.some.inj (by rw [← hp, ← hp', hmaxp, hmin])
    rw [hr, hr']
    exact .ok _ (hsim.setPressure p hcounts)
  · exact absurd (hmin ▸ heq') hne
  · exact absurd (hmin.trans heq) hne'
  · rw [hr, hr']
    exact .raise _ hcounts

theorem takeReading_rel (r : Option RawWord) (h : R w w') : Res.Rel R (takeReading r w) (takeReading r w') :=
  (rawOrFetch_rel hsim r h).bind fun raw _ _ h => storeReading_rel hsim raw h

theorem getPressure_rel (r : Option RawWord) (h : R w w') : Res.Rel R (getPressure r w) (getPressure r w') :=
  (takeReading_rel hsim r h).map Prod.snd

theorem getStatus_rel (r : Option RawWord) (h : R w w') : Res.Rel R (getStatus r w) (getStatus r w') :=
  (rawOrFetch_rel hsim r h).bind fun raw _ _ h => .ok (statusOf raw) (hsim.setStatus _ h)

theorem statusValue_rel (r : Option RawWord) (h : R w w') : Res.Rel R (statusValue r w) (statusValue r w') :=
  (getStatus_rel hsim r h).map _

theorem currentCounts_rel (h : R w w') : Res.Rel R (currentCounts w) (currentCounts w') := by
  obtain ⟨_, _, hcounts⟩ := hsim.operands h
  cases hc : w.regs.outputCounts with
  | some c =>
    rw [currentCounts_some w c hc, currentCounts_some w' c (hcounts.trans hc)]
    exact .ok c h
  | none =>
    rw [currentCounts_none w hc, currentCounts_none w' (hcounts.trans hc)]
    exact (takeReading_rel hsim none h).map Prod.fst

theorem calibrateValue_rel (h : R w w') : Res.Rel R (calibrateValue w) (calibrateValue w') :=
  ((currentCounts_rel hsim h).bind fun c _ _ h => .ok c (hsim.setZero c h)).map _

theorem bodyOf_rel (i : Instr) (h : R w w') : Res.Rel R (bodyOf i w) (bodyOf i w') := by
  cases i with
  | construct addr maxp autocal => exact .raise _ h
  | fetchRaw => exact (fetchRaw_rel hsim h).map _
  | decodeCounts raw => exact .ok _ h
  | decodeStatus raw => exact .ok _ h
  | getPressureR raw => exact getPressure_rel hsim (some raw) h
  | getPressureB => exact getPressure_rel hsim none h
  | getStatusR raw => exact statusValue_rel hsim (some raw) h
  | getStatusB => exact statusValue_rel hsim none h
  | calibrate => exact calibrateValue_rel hsim h
  | discard => exact .ok _ h

end

/-! ## The command as a whole -/

/-- Two states with the same responses and the same wait, that hold related instances, or none. -/
def State.Alike (R : Work → Work → Prop) (t t' : State) : Prop :=
  t'.responses = t.responses ∧ t'.waiting = t.waiting
    ∧ ∃ w w', R w w' ∧ t.bus = w.bus ∧ t'.bus = w'.bus
      ∧ ((t.block = .constructed w.regs ∧ t'.block = .constructed w'.regs)
        ∨ (t.block = .unconstructed ∧ t'.block = .unconstructed))

/-- Sub-operations that end alike end their command alike; one that waits has left the registers as they were. -/
theorem finish_alike {R : Work → Work → Prop} (hsim : Simulation R) (i : Instr) {s s' : State} {g g' : Regs}
    {r r' : Res Value} (hresponses : s'.responses = s.responses) (hwaiting : s'.waiting = s.waiting)
    (hb : s.block = .constructed g) (hb' : s'.block = .constructed g') (hr : Res.Rel R r r')
    (hhang : ∀ w, r = .hang w → w.regs = g) (hhang' : ∀ w, r' = .hang w → w.regs = g') : State.Alike R (finish i s r) (finish i s' r') := by
  cases hr with
  | ok v h =>
    obtain ⟨_, hmin, _⟩ := hsim.operands h
    exact ⟨by simp [hresponses, hmin], hwaiting, _, _, h, rfl, rfl, .inl ⟨rfl, rfl⟩⟩
  | raise f h =>
    obtain ⟨_, hmin, _⟩ := hsim.operands h
    exact ⟨by simp [hresponses, hmin], hwaiting, _, _, h, rfl, rfl, .inl ⟨rfl, rfl⟩⟩
  | hang h =>
    refine ⟨hresponses, rfl, _, _, h, rfl, rfl, .inl ⟨?_, ?_⟩⟩
    · rw [hhang _ rfl]
      exact hb
    · rw [hhang' _ rfl]
      exact hb'

/-- A command that waits has written no register (R46). -/
theorem regs_of_bodyOf_hang {i : Instr} {w w' : Work} (h : bodyOf i w = .hang w') : w'.regs = w.regs := by
  obtain ⟨_, _, rfl⟩ := bodyOf_eq_hang_iff.1 h
  rfl

/-- Related instances answer every command alike and are related after it. -/
theorem exec_alike {R : Work → Work → Prop} (hsim : Simulation R) (s : State) (i : Instr) {g g' : Regs}
    (h : R { regs := g, bus := s.bus } { regs := g', bus := s.bus }) :
    ∃ t t', exec i (s.withRegs g) = .next t ∧ exec i (s.withRegs g') = .next t' ∧ State.Alike R t t' := by
  by_cases hi : i = .discard
  · subst hi
    exact ⟨_, _, rfl, rfl, rfl, rfl, _, _, h, rfl, rfl, .inr ⟨rfl, rfl⟩⟩
  · exact ⟨_, _, exec_of_constructed rfl hi, exec_of_constructed rfl hi,
      finish_alike hsim i (s := s.withRegs g) (s' := s.withRegs g') rfl rfl rfl rfl (bodyOf_rel hsim i h)
        (fun _ => regs_of_bodyOf_hang) (fun _ => regs_of_bodyOf_hang)⟩

/-! ## Two relations -/

/-- The registers that steer the block: all but `calibrated`, `pressure` and `status` (R11). -/
def Regs.steering (g : Regs) : BusAddr × RatedPressure × Counts × Option Counts :=
  (g.busAddr, g.maxPressure, g.outputMin, g.outputCounts)

/-- The instances agree in the registers that steer the block, and the bus is one. -/
def SteeredAlike (w w' : Work) : Prop := w'.bus = w.bus ∧ w'.regs.steering = w.regs.steering

theorem steeredAlike_iff {w w' : Work} :
    SteeredAlike w w' ↔ w'.bus = w.bus ∧ w'.regs.busAddr = w.regs.busAddr ∧ w'.regs.maxPressure = w.regs.maxPressure
      ∧ w'.regs.outputMin = w.regs.outputMin ∧ w'.regs.outputCounts = w.regs.outputCounts := by
  simp [SteeredAlike, Regs.steering]

/-- No operation's effect on the steering registers and the bus depends on another register. -/
theorem steeredAlike_simulation : Simulation SteeredAlike := by
  constructor <;> simp +contextual [steeredAlike_iff]

/-- The second instance is the first with another bus address, and its bus meets the same draws from now on (R14). -/
def AddressedAt (a : BusAddr) (w w' : Work) : Prop :=
  w'.regs = { w.regs with busAddr := a } ∧ w'.bus.lined = w.bus.lined
    ∧ w'.bus.requests.length = w.bus.requests.length

/-- A draw depends on the draws lined up and the number of requests only (R44). -/
theorem nextDraw_congr {b b' : Bus} (hlined : b'.lined = b.lined) (hlength : b'.requests.length = b.requests.length) :
    nextDraw b' = nextDraw b := by
  rw [nextDraw, nextDraw, hlined, hlength]

theorem addressedAt_simulation (a : BusAddr) : Simulation (AddressedAt a) where
  draw := fun ⟨_, hlined, hlength⟩ => nextDraw_congr hlined hlength
  read := fun ⟨hregs, hlined, hlength⟩ => ⟨hregs, by simp [Bus.afterRead, hlined], by simp [Bus.afterRead, hlength]⟩
  operands := fun ⟨hregs, _, _⟩ => by rw [hregs]; exact ⟨rfl, rfl, rfl⟩
  setCounts := fun c ⟨hregs, hbus⟩ => ⟨by rw [hregs]; rfl, hbus⟩
  setPressure := fun p ⟨hregs, hbus⟩ => ⟨by rw [hregs]; rfl, hbus⟩
  setStatus := fun x ⟨hregs, hbus⟩ => ⟨by rw [hregs]; rfl, hbus⟩
  setZero := fun m ⟨hregs, hbus⟩ => ⟨by rw [hregs]; rfl, hbus⟩

end Sys2Proof.Machine

open Sys2Proof Sys2Proof.Machine

/-- Settles O42: agreement in the steering registers is kept by every operation, and none computes with another register. -/
theorem observationRegistersSteerNothing : Obligations.ObservationRegistersSteerNothing := by
  intro s i g g' haddr hmaxp hmin hcounts
  have halike : SteeredAlike { regs := g, bus := s.bus } { regs := g', bus := s.bus } :=
    steeredAlike_iff.2 ⟨rfl, haddr, hmaxp, hmin, hcounts⟩
  obtain ⟨t, t', hexec, hexec', hresponses, hwaiting, w, w', ⟨hbus, hregs⟩, hw, hw', hblocks⟩ :=
    exec_alike steeredAlike_simulation s i halike
  refine ⟨t, t', hexec, hexec', hresponses, by rw [hw, hw', hbus], hwaiting, ?_⟩
  obtain ⟨hb, hb'⟩ | ⟨hb, hb'⟩ := hblocks <;> rw [hb, hb']
  exact congrArg some hregs

/-- Settles O43: the address is written into requests only, which no draw and no response depends on. -/
theorem busAddressIsOpaque : Obligations.BusAddressIsOpaque := by
  intro s i g a
  have haddressed : AddressedAt a { regs := g, bus := s.bus } { regs := { g with busAddr := a }, bus := s.bus } :=
    ⟨rfl, rfl, rfl⟩
  obtain ⟨t, t', hexec, hexec', hresponses, hwaiting, w, w', ⟨hregs, _, hlength⟩, hw, hw', hblocks⟩ :=
    exec_alike (addressedAt_simulation a) s i haddressed
  refine ⟨t, t', hexec, hexec', hresponses, hwaiting, by rw [hw, hw', hlength], ?_⟩
  obtain ⟨hb, hb'⟩ | ⟨hb, hb'⟩ := hblocks <;> rw [hb, hb']
  · exact congrArg some hregs
  · rfl

end


section
/-! The fields of a raw word (30_encoding.md R61, R62) and of a response word (R80 to R83), and the written program lines
(R75). -/

namespace Sys2Proof.Machine

/-! ## The bytes of a raw word (R61) -/

theorem byte0_packRaw (b0 b1 b2 b3 : Byte) : byte0 (packRaw b0 b1 b2 b3) = b0 := by
  rw [byte0, packRaw, BitVec.extractLsb'_append_eq_of_le (by decide), BitVec.extractLsb'_append_eq_of_le (by decide)]
  exact BitVec.extractLsb'_append_eq_left

theorem byte1_packRaw (b0 b1 b2 b3 : Byte) : byte1 (packRaw b0 b1 b2 b3) = b1 := by
  rw [byte1, packRaw, BitVec.extractLsb'_append_eq_of_le (by decide), BitVec.extractLsb'_append_eq_of_le (by decide)]
  exact BitVec.extractLsb'_append_eq_right

theorem byte2_packRaw (b0 b1 b2 b3 : Byte) : byte2 (packRaw b0 b1 b2 b3) = b2 := by
  rw [byte2, packRaw, BitVec.extractLsb'_append_eq_of_le (by decide)]
  exact BitVec.extractLsb'_append_eq_right

theorem byte3_packRaw (b0 b1 b2 b3 : Byte) : byte3 (packRaw b0 b1 b2 b3) = b3 := BitVec.extractLsb'_append_eq_right

/-! ## The response word (R80) -/

theorem extractLsb'_word_op (r : Response) : r.word.extractLsb' 54 3 = r.op := by
  rw [Response.word, BitVec.extractLsb'_append_eq_of_le (by decide), BitVec.extractLsb'_append_eq_of_le (by decide),
    BitVec.extractLsb'_append_eq_of_le (by decide)]
  exact BitVec.extractLsb'_append_eq_left

theorem extractLsb'_word_code (r : Response) : r.word.extractLsb' 51 3 = r.code := by
  rw [Response.word, BitVec.extractLsb'_append_eq_of_le (by decide), BitVec.extractLsb'_append_eq_of_le (by decide),
    BitVec.extractLsb'_append_eq_of_le (by decide)]
  exact BitVec.extractLsb'_append_eq_right

theorem getLsbD_word_warn (r : Response) : r.word.getLsbD 50 = r.warn := by
  simp only [Response.word, BitVec.getLsbD_append]
  cases r.warn <;> simp

theorem extractLsb'_word_info (r : Response) : r.word.extractLsb' 48 2 = r.info := by
  rw [Response.word, BitVec.extractLsb'_append_eq_of_le (by decide)]
  exact BitVec.extractLsb'_append_eq_right

theorem extractLsb'_word_value (r : Response) : r.word.extractLsb' 0 48 = r.value := BitVec.extractLsb'_append_eq_right

/-! ## Written lines (R75) -/

/-- Four written bytes, each in range, are a raw operand; nothing else is (R75). -/
theorem rawOfNats_isSome (bytes : List Nat) : (rawOfNats bytes).isSome = rawBytesOk bytes := by
  match bytes with
  | [b0, b1, b2, b3] => cases h : rawBytesOk [b0, b1, b2, b3] <;> simp [rawOfNats, h]
  | [] | [_] | [_, _] | [_, _, _] | _ :: _ :: _ :: _ :: _ :: _ => simp [rawOfNats, rawBytesOk]

theorem rawOfNats_toNat (b0 b1 b2 b3 : Byte) :
    rawOfNats [b0.toNat, b1.toNat, b2.toNat, b3.toNat] = some (packRaw b0 b1 b2 b3) := by
  have hok : rawBytesOk [b0.toNat, b1.toNat, b2.toNat, b3.toNat] = true := by
    simp [rawBytesOk, b0.isLt, b1.isLt, b2.isLt, b3.isLt]
  simp [rawOfNats, hok, packRaw]

/-- A CONSTRUCT line whose decimal is `maxp`'s SQ16.16 value (R75). -/
theorem assemble_construct (addr : BusAddr) {d : Decimal} {maxp : RatedPressure} (autocal : Bool)
    (h : maxp.toInt * (10 ^ d.places : Nat) = d.mantissa * 65536) :
    assemble (.construct addr.toNat d autocal) = some (.construct addr maxp autocal) := by
  have hlo : -2147483648 ≤ maxp.toInt := BitVec.le_toInt maxp
  have hhi : maxp.toInt < 2147483648 := BitVec.toInt_lt
  have hsq : d.sq16 = some maxp.toInt := sq16_of_mul_eq d maxp.toInt h (by omega) (by omega)
  simp [assemble, hsq, addr.isLt]

/-- A line stands for a command where its checks hold and it is not READ_BOTH (R75). -/
theorem assemble_isSome (l : Line) : (assemble l).isSome = (l.wellFormed && decide (l ≠ .readBoth)) := by
  cases l with
  | construct addr maxp autocal => by_cases h : addr < 256 <;> simp [assemble, Line.wellFormed, h]
  | decodeCounts bytes => simp [assemble, Line.wellFormed, rawOfNats_isSome]
  | decodeStatus bytes => simp [assemble, Line.wellFormed, rawOfNats_isSome]
  | getPressure bytes => cases bytes <;> simp [assemble, Line.wellFormed, rawOfNats_isSome]
  | getStatus bytes => cases bytes <;> simp [assemble, Line.wellFormed, rawOfNats_isSome]
  | fetchRaw | calibrate | discard | readBoth => rfl

end Sys2Proof.Machine

open Sys2Proof Sys2Proof.Machine

/-- Settles O5: each word evaluates to its instruction. -/
theorem writtenWordsDecode : Obligations.WrittenWordsDecode := by
  unfold Obligations.WrittenWordsDecode
  decide

/-- Settles O6: the fields stand side by side in the word; each kind has its code and its info. -/
theorem responseWordHoldsItsFields : Obligations.ResponseWordHoldsItsFields := by
  intro r
  refine ⟨extractLsb'_word_op r, (extractLsb'_word_code r).trans ?_, getLsbD_word_warn r,
    (extractLsb'_word_info r).trans ?_, extractLsb'_word_value r⟩
  · obtain ⟨op, warn, v | f⟩ := r
    · rfl
    · cases f <;> rfl
  · obtain ⟨op, warn, v | f⟩ := r
    · rfl
    · cases f <;> rfl

/-- Settles O17: the bytes stand side by side in the word, and the two fields are slices of it. -/
theorem rawWordHoldsItsFields : Obligations.RawWordHoldsItsFields := by
  refine ⟨fun b0 b1 b2 b3 => ?_, fun raw => ⟨packRaw_bytes raw, statusOf_eq_extractLsb' raw, countsOf_eq_extractLsb' raw⟩⟩
  exact ⟨byte0_packRaw b0 b1 b2 b3, byte1_packRaw b0 b1 b2 b3, byte2_packRaw b0 b1 b2 b3, byte3_packRaw b0 b1 b2 b3⟩

/-- Settles O7: a decimal has one SQ16.16 value and four bytes one raw word, found where the checks hold. -/
theorem linesAssembleWhereWellFormed : Obligations.LinesAssembleWhereWellFormed := by
  refine ⟨assemble_isSome, fun addr d maxp autocal h => assemble_construct addr autocal h, fun b0 b1 b2 b3 => ?_,
    rfl, rfl, rfl, rfl, rfl⟩
  simp [assemble, rawOfNats_toNat]

end


section
/-! The laws of the engine (43_transfer.md section 1, R137): truncation toward zero, exactness at the zero and at the rated
count, oddness about the zero and monotony. -/

namespace Sys2Proof.Machine

/-! ## The result as a word (R133) -/

theorem natAbs_quotient_lt (c omin : Counts) {mp : RatedPressure} (h : 0 < mp.toInt) (hspan : spanOf omin ≠ 0) :
    (quotient c omin mp.toInt).natAbs < 2 ^ 45 := by
  have hmax := natAbs_quotient_le_max c omin h hspan
  omega

theorem pressureOf_eq (c omin : Counts) (mp : RatedPressure) :
    pressureOf c omin mp = BitVec.ofInt 48 (quotient c omin mp.toInt) := by
  rw [quotient_eq]
  rfl

/-- The signed value of a pressure is the quotient itself: the word holds it (R136). -/
theorem toInt_pressureOf (c : Counts) {omin : Counts} {mp : RatedPressure} (h : 0 < mp.toInt) (hspan : spanOf omin ≠ 0) :
    (pressureOf c omin mp).toInt = quotient c omin mp.toInt := by
  rw [pressureOf_eq, toInt_ofInt_of_natAbs_lt (natAbs_quotient_lt c omin h hspan)]

theorem spanOf_ne_zero_iff (omin : Counts) : spanOf omin ≠ 0 ↔ omin ≠ 14745#14 := not_congr (spanOf_eq_zero_iff omin)

/-! ## Truncation toward zero (R137 (a), (f)) -/

/-- The numerator is the quotient's share and a remainder smaller than the divisor. -/
theorem quotient_mul_spanOf (c omin : Counts) (mp : Int) :
    quotient c omin mp * spanOf omin = diffOf c omin * mp - Int.tmod (diffOf c omin * mp) (spanOf omin) := by
  rw [quotient_eq, Int.tmod_def]
  ring

theorem natAbs_quotient_mul_spanOf_le (c omin : Counts) (mp : Int) :
    (quotient c omin mp * spanOf omin).natAbs ≤ (diffOf c omin * mp).natAbs := by
  rw [Int.natAbs_mul, quotient_eq, Int.natAbs_tdiv]
  exact Nat.div_mul_le_self _ _

theorem natAbs_sub_quotient_mul_spanOf_lt (c : Counts) {omin : Counts} (mp : Int) (hspan : spanOf omin ≠ 0) :
    (diffOf c omin * mp - quotient c omin mp * spanOf omin).natAbs < (spanOf omin).natAbs := by
  rw [quotient_mul_spanOf, Int.sub_sub_self, Int.natAbs_tmod]
  exact Nat.mod_lt _ (Int.natAbs_pos.2 hspan)

/-- Truncated division gives the sign of the exact value, or 0. -/
theorem tdiv_mul_nonneg (n d : Int) : 0 ≤ Int.tdiv n d * (n * d) := by
  have hcalc : Int.tdiv n d * (n * d) = (n.natAbs / d.natAbs : Nat) * (n.natAbs * d.natAbs : Nat) := by
    calc Int.tdiv n d * (n * d)
        = (n.natAbs / d.natAbs : Nat) * ((n.sign * n) * (d.sign * d)) := by rw [← tdiv_eq, tdiv]; ring
      _ = (n.natAbs / d.natAbs : Nat) * (n.natAbs * d.natAbs : Nat) := by
        rw [Int.sign_mul_self, Int.sign_mul_self, Nat.cast_mul]
  rw [hcalc]
  positivity

/-! ## Exactness and oddness (R137 (b), (c), (e)) -/

theorem quotient_self (omin : Counts) (mp : Int) : quotient omin omin mp = 0 := by
  rw [quotient_eq, diffOf_eq, Int.sub_self, Int.zero_mul, Int.zero_tdiv]

/-- At the rated count the numerator is the divisor times the rated pressure. -/
theorem quotient_rated {omin : Counts} (hspan : spanOf omin ≠ 0) (mp : Int) : quotient 14745#14 omin mp = mp := by
  have hdiff : diffOf 14745#14 omin = spanOf omin := rfl
  rw [quotient_eq, hdiff, Int.mul_tdiv_cancel_left _ hspan]

theorem quotient_eq_neg_of_diffOf {c c' omin : Counts} (h : diffOf c omin = -diffOf c' omin) (mp : Int) :
    quotient c omin mp = -quotient c' omin mp := by
  rw [quotient_eq, quotient_eq, h, Int.neg_mul, Int.neg_tdiv]

/-! ## Monotony (R137 (d)) -/

/-- One step of a count is a step of the result where the scale is at least the divisor, upwards from 0. -/
theorem tdiv_mul_lt_of_nonneg {k k' m d : Int} (hd : 0 < d) (hm : d ≤ m) (hk : 0 ≤ k) (hlt : k < k') :
    Int.tdiv (k * m) d < Int.tdiv (k' * m) d := by
  have hstep : k * m + d ≤ k' * m := by nlinarith
  have hnonneg : 0 ≤ k * m := Int.mul_nonneg hk (by omega)
  have hnext : Int.tdiv (k * m + d) d = Int.tdiv (k * m) d + 1 := by
    rw [Int.tdiv_eq_ediv_of_nonneg (by omega), Int.tdiv_eq_ediv_of_nonneg hnonneg, Int.add_ediv_of_dvd_right (dvd_refl d),
      Int.ediv_self hd.ne']
  have hle := Int.tdiv_le_tdiv hd hstep
  omega

/-- Truncation is symmetric about 0, so the same holds below 0 and across it. -/
theorem tdiv_mul_lt {k k' m d : Int} (hd : 0 < d) (hm : d ≤ m) (hlt : k < k') :
    Int.tdiv (k * m) d < Int.tdiv (k' * m) d := by
  rcases Int.lt_or_le k 0 with hneg | hnonneg
  · rcases Int.lt_or_le 0 k' with hpos' | hnonpos'
    · have hbelow := tdiv_mul_lt_of_nonneg hd hm (Int.le_refl 0) (show 0 < -k by omega)
      have habove := tdiv_mul_lt_of_nonneg hd hm (Int.le_refl 0) hpos'
      rw [Int.neg_mul, Int.neg_tdiv, Int.zero_mul, Int.zero_tdiv] at hbelow
      rw [Int.zero_mul, Int.zero_tdiv] at habove
      omega
    · have hmirror := tdiv_mul_lt_of_nonneg hd hm (show 0 ≤ -k' by omega) (show -k' < -k by omega)
      rw [Int.neg_mul, Int.neg_mul, Int.neg_tdiv, Int.neg_tdiv] at hmirror
      omega
  · exact tdiv_mul_lt_of_nonneg hd hm hnonneg hlt

theorem diffOf_le_diffOf_iff {c c' omin : Counts} : diffOf c omin ≤ diffOf c' omin ↔ c.toNat ≤ c'.toNat := by
  rw [diffOf_eq, diffOf_eq]
  omega

theorem diffOf_lt_diffOf_iff {c c' omin : Counts} : diffOf c omin < diffOf c' omin ↔ c.toNat < c'.toNat := by
  rw [diffOf_eq, diffOf_eq]
  omega

/-- A negative span turns the sign of the result (R135). -/
theorem quotient_eq_neg (c omin : Counts) (mp : Int) :
    quotient c omin mp = -Int.tdiv (diffOf c omin * mp) (-spanOf omin) := by
  rw [quotient_eq, Int.tdiv_neg, Int.neg_neg]

theorem quotient_le_of_pos {omin c c' : Counts} {mp : Int} (hmp : 0 < mp) (hspan : 0 < spanOf omin)
    (h : c.toNat ≤ c'.toNat) : quotient c omin mp ≤ quotient c' omin mp := by
  rw [quotient_eq, quotient_eq]
  exact Int.tdiv_le_tdiv hspan (Int.mul_le_mul_of_nonneg_right (diffOf_le_diffOf_iff.2 h) hmp.le)

theorem quotient_le_of_neg {omin c c' : Counts} {mp : Int} (hmp : 0 < mp) (hspan : spanOf omin < 0)
    (h : c.toNat ≤ c'.toNat) : quotient c' omin mp ≤ quotient c omin mp := by
  rw [quotient_eq_neg, quotient_eq_neg]
  exact Int.neg_le_neg (Int.tdiv_le_tdiv (Int.neg_pos_of_neg hspan)
    (Int.mul_le_mul_of_nonneg_right (diffOf_le_diffOf_iff.2 h) hmp.le))

theorem quotient_lt_of_pos {omin c c' : Counts} {mp : Int} (hspan : 0 < spanOf omin) (hstep : spanOf omin ≤ mp)
    (h : c.toNat < c'.toNat) : quotient c omin mp < quotient c' omin mp := by
  rw [quotient_eq, quotient_eq]
  exact tdiv_mul_lt hspan hstep (diffOf_lt_diffOf_iff.2 h)

theorem quotient_lt_of_neg {omin c c' : Counts} {mp : Int} (hspan : spanOf omin < 0) (hstep : -spanOf omin ≤ mp)
    (h : c.toNat < c'.toNat) : quotient c' omin mp < quotient c omin mp := by
  rw [quotient_eq_neg, quotient_eq_neg]
  exact Int.neg_lt_neg (tdiv_mul_lt (Int.neg_pos_of_neg hspan) hstep (diffOf_lt_diffOf_iff.2 h))

/-- A rated pressure below the span: the count next above the zero still gives 0. -/
theorem exists_quotient_eq_zero_of_pos {omin : Counts} {mp : Int} (hmp : 0 < mp) (hspan : 0 < spanOf omin)
    (h : mp < spanOf omin) : ∃ c : Counts, omin.toNat < c.toNat ∧ quotient c omin mp = 0 := by
  have hc : (BitVec.ofNat 14 (omin.toNat + 1)).toNat = omin.toNat + 1 := by
    rw [spanOf_eq] at hspan
    rw [BitVec.toNat_ofNat]
    omega
  have hdiff : diffOf (BitVec.ofNat 14 (omin.toNat + 1)) omin = 1 := by
    rw [diffOf_eq, hc]
    omega
  exact ⟨_, by rw [hc]; omega, by rw [quotient_eq, hdiff, Int.one_mul, Int.tdiv_eq_zero_of_lt hmp.le h]⟩

/-- A rated pressure below the magnitude of a negative span: the count next below the zero still gives 0. -/
theorem exists_quotient_eq_zero_of_neg {omin : Counts} {mp : Int} (hmp : 0 < mp) (hspan : spanOf omin < 0)
    (h : mp < -spanOf omin) : ∃ c : Counts, c.toNat < omin.toNat ∧ quotient c omin mp = 0 := by
  have homin := omin.isLt
  rw [spanOf_eq] at hspan
  have hc : (BitVec.ofNat 14 (omin.toNat - 1)).toNat = omin.toNat - 1 := by
    rw [BitVec.toNat_ofNat]
    omega
  have hdiff : diffOf (BitVec.ofNat 14 (omin.toNat - 1)) omin = -1 := by
    rw [diffOf_eq, hc]
    omega
  refine ⟨_, by rw [hc]; omega, ?_⟩
  rw [quotient_eq_neg, hdiff, Int.neg_mul, Int.one_mul, Int.neg_tdiv, Int.tdiv_eq_zero_of_lt hmp.le h]
  rfl

end Sys2Proof.Machine

open Sys2Proof Sys2Proof.Machine

/-- Settles O20: the common factor cancels, and the 48-bit word holds every quotient the engine reaches. -/
theorem transferIsTheTruncatedQuotient : Obligations.TransferIsTheTruncatedQuotient := by
  refine fun c omin mp hmp => ⟨fun h => ?_, fun h => ?_⟩
  · exact (transfer_none_iff c omin mp.toInt).2 (BitVec.eq_of_toNat_eq h)
  · have hne : omin ≠ 14745#14 := fun heq => h (by rw [heq]; rfl)
    refine ⟨_, transfer_eq_pressureOf c omin mp hne, ?_⟩
    rw [toInt_pressureOf c hmp ((spanOf_ne_zero_iff omin).2 hne), quotient_eq]
    rfl

/-- Settles O22: dividing the magnitudes rounds down, and the sign is that of the exact value. -/
theorem resultIsTruncatedTowardZero : Obligations.ResultIsTruncatedTowardZero := by
  intro c omin mp hmp hspan
  refine ⟨natAbs_quotient_mul_spanOf_le c omin mp.toInt, natAbs_sub_quotient_mul_spanOf_lt c mp.toInt hspan,
    ?_, ?_⟩
  · rw [quotient_eq]
    exact tdiv_mul_nonneg _ _
  · rw [natAbs_quotient, Int.natAbs_mul]

/-- Settles O23: at the zero the numerator is 0, at the rated count the divisor times the rated pressure. -/
theorem zeroAndRatedCountsAreExact : Obligations.ZeroAndRatedCountsAreExact := by
  refine ⟨fun omin mp _ hspan => ?_, fun omin mp _ hspan => ?_⟩
  · rw [transfer_some _ _ _ ((spanOf_ne_zero_iff omin).1 hspan), quotient_self]
    rfl
  · rw [transfer_some _ _ _ ((spanOf_ne_zero_iff omin).1 hspan.ne'), quotient_rated hspan.ne']
    rfl

/-- Settles O24: the numerators are negatives of each other, and truncation toward zero is odd. -/
theorem transferIsOddAboutTheZero : Obligations.TransferIsOddAboutTheZero := by
  intro c c' omin mp _ _ h
  refine quotient_eq_neg_of_diffOf ?_ mp.toInt
  rw [diffOf_eq, diffOf_eq]
  omega

/-- Settles O25: truncated division is monotone; a count step is at least one unit where the rated pressure is at least the
span's magnitude, and else the count next to the zero gives the 0 of the zero itself. -/
theorem transferIsMonotone : Obligations.TransferIsMonotone := by
  refine fun omin mp hmp => ⟨fun hspan => ⟨fun c c' => quotient_le_of_pos hmp hspan, fun hstrict => ?_, fun hstep c c' =>
    quotient_lt_of_pos hspan hstep⟩, fun hspan => ⟨fun c c' => quotient_le_of_neg hmp hspan, fun hstrict => ?_,
      fun hstep c c' => quotient_lt_of_neg hspan hstep⟩⟩
  · by_contra hsmall
    obtain ⟨c, hc, hzero⟩ := exists_quotient_eq_zero_of_pos hmp hspan (Int.not_le.1 hsmall)
    have hlt := hstrict omin c hc
    rw [quotient_self, hzero] at hlt
    exact Int.lt_irrefl 0 hlt
  · by_contra hsmall
    obtain ⟨c, hc, hzero⟩ := exists_quotient_eq_zero_of_neg hmp hspan (Int.not_le.1 hsmall)
    have hlt := hstrict c omin hc
    rw [quotient_self, hzero] at hlt
    exact Int.lt_irrefl 0 hlt

end


section
/-! GET_PRESSURE on an instance (43_transfer.md section 2): what it stores and answers in one form for every zero, the bus form
as the raw form of the word read (R142), a second one of the same reading (R143), and the inverted slope (R135). -/

namespace Sys2Proof.Machine

@[simp] theorem State.withRegs_block (s : State) (g : Regs) : (s.withRegs g).block = .constructed g := rfl
@[simp] theorem State.withRegs_responses (s : State) (g : Regs) : (s.withRegs g).responses = s.responses := rfl

/-- The registers after GET_PRESSURE with this count: the pressure too, unless the span is 0 (R140). -/
def Regs.measuredAt (g : Regs) (c : Counts) : Regs :=
  if g.outputMin = 14745#14 then g.setCounts c else (g.setCounts c).setPressure (pressureOf c g.outputMin g.maxPressure)

/-- What GET_PRESSURE answers to this count (R134, R140). -/
def Regs.pressureResult (g : Regs) (c : Counts) : Result :=
  if g.outputMin = 14745#14 then .fail .degenerateCalibration else .ok (pressureOf c g.outputMin g.maxPressure)

@[simp] theorem Regs.measuredAt_outputMin (g : Regs) (c : Counts) : (g.measuredAt c).outputMin = g.outputMin := by
  rw [Regs.measuredAt]
  split <;> rfl

@[simp] theorem Regs.measuredAt_maxPressure (g : Regs) (c : Counts) : (g.measuredAt c).maxPressure = g.maxPressure := by
  rw [Regs.measuredAt]
  split <;> rfl

@[simp] theorem Regs.measuredAt_outputCounts (g : Regs) (c : Counts) : (g.measuredAt c).outputCounts = some c := by
  rw [Regs.measuredAt]
  split <;> rfl

@[simp] theorem Regs.pressureResult_measuredAt (g : Regs) (c : Counts) :
    (g.measuredAt c).pressureResult c = g.pressureResult c := by
  simp [Regs.pressureResult]

/-- Storing a reading a second time stores what is there (R143). -/
theorem Regs.measuredAt_measuredAt (g : Regs) (c : Counts) : (g.measuredAt c).measuredAt c = g.measuredAt c := by
  rw [Regs.measuredAt, Regs.measuredAt_outputMin, Regs.measuredAt_maxPressure, Regs.measuredAt]
  split <;> rfl

/-- GET_PRESSURE.R on an instance, whatever its zero (R141). -/
theorem exec_getPressureR_of_constructed {s : State} {g : Regs} (h : s.block = .constructed g) (raw : RawWord) :
    exec (.getPressureR raw) s
      = .next ((s.withRegs (g.measuredAt (countsOf raw))).answered
          4#3 (flagged g.outputMin) (g.pressureResult (countsOf raw))) := by
  by_cases hmin : g.outputMin = 14745#14
  · have hwarn : flagged g.outputMin = true := by rw [hmin]; rfl
    rw [exec_getPressureR_of_eq h raw hmin, Regs.measuredAt, Regs.pressureResult, if_pos hmin, if_pos hmin, hwarn]
  · rw [exec_getPressureR_of_ne h raw hmin, Regs.measuredAt, Regs.pressureResult, if_neg hmin, if_neg hmin]

theorem exec_getPressureB (s : State) :
    exec .getPressureB s = .next (onConstructed .getPressureB (getPressure none) s) := rfl

theorem getPressure_none_of_readsWord (g : Regs) {b : Bus} {raw : RawWord} (h : readsWord b raw) :
    getPressure none { regs := g, bus := b } = getPressure (some raw) { regs := g, bus := b.afterRead g.busAddr } := by
  rw [getPressure, takeReading_none, fetchRaw_readsWord g b raw h]
  rfl

theorem getPressure_none_of_readFails (g : Regs) {b : Bus} {f : Failure} (h : readFails b f) :
    getPressure none { regs := g, bus := b } = .raise f { regs := g, bus := b.afterRead g.busAddr } := by
  rw [getPressure, takeReading_none, fetchRaw_readFails g b f h, Res.bind_raise, Res.bind_raise]

/-- The bus form on a whole reading is the raw form on the word read, after the read (R142). -/
theorem exec_getPressureB_of_readsWord {s : State} {g : Regs} (h : s.block = .constructed g) {raw : RawWord}
    (hread : readsWord s.bus raw) : exec .getPressureB s = exec (.getPressureR raw) (s.withRead g.busAddr) := by
  rw [exec_getPressureB, onConstructed_constructed _ _ s g h, getPressure_none_of_readsWord g hread, exec_getPressureR,
    onConstructed_constructed _ _ (s.withRead g.busAddr) g h, State.withRead_bus]
  cases hr : getPressure (some raw) { regs := g, bus := s.bus.afterRead g.busAddr } with
  | ok v w => rfl
  | raise f w => rfl
  | hang w => exact absurd hr (getPressure_some_ne_hang raw _ w)

theorem exec_getPressureB_of_readFails {s : State} {g : Regs} (h : s.block = .constructed g) {f : Failure}
    (hread : readFails s.bus f) :
    exec .getPressureB s = .next ((s.withRead g.busAddr).answered 4#3 (flagged g.outputMin) (.fail f)) := by
  rw [exec_getPressureB, onConstructed_of_raise h (getPressure_none_of_readFails g hread), setWork_afterRead h, opcode]

end Sys2Proof.Machine

open Sys2Proof Sys2Proof.Machine

/-- Settles O32: the command ends as its one bus read does, and on a whole reading as the raw form. -/
theorem getPressureBusFollowsItsRule : Obligations.GetPressureBusFollowsItsRule := by
  refine ⟨by decide, fun s hb => ?_, fun s g hb => ⟨fun f hread => ?_, fun raw hread hmin => ?_, fun raw hread hmin => ?_⟩⟩
  · rw [exec_getPressureB, onConstructed_of_unconstructed hb, opcode]
  · exact exec_getPressureB_of_readFails hb hread
  · rw [← countsOf_eq_extractLsb', exec_getPressureB_of_readsWord hb hread]
    exact exec_getPressureR_of_ne (s := s.withRead g.busAddr) hb raw hmin
  · rw [← countsOf_eq_extractLsb', exec_getPressureB_of_readsWord hb hread]
    exact exec_getPressureR_of_eq (s := s.withRead g.busAddr) hb raw hmin

/-- Settles O33: FETCH_RAW leaves the state after the read with one more response, which GET_PRESSURE.R does not see. -/
theorem busPressureIsFetchThenRaw : Obligations.BusPressureIsFetchThenRaw := by
  intro s g raw hb hread
  have hfetched : ((s.withRead g.busAddr).answered 1#3 (flagged g.outputMin) (.ok (raw.setWidth 48))).block
      = .constructed g := hb
  have hbus := exec_getPressureB_of_readsWord hb hread
  rw [exec_getPressureR_of_constructed (s := s.withRead g.busAddr) hb] at hbus
  exact ⟨_, _, _, _, _, exec_fetchRaw_of_readsWord hb hread, exec_getPressureR_of_constructed hfetched raw, hbus,
    rfl, rfl, rfl, List.append_assoc _ _ _, rfl⟩

/-- Settles O44: the reading stored is stored again, its pressure computed with the same zero. -/
theorem getPressureIsIdempotent : Obligations.GetPressureIsIdempotent := by
  intro s g raw hb
  refine ⟨_, _, _, exec_getPressureR_of_constructed hb raw, exec_getPressureR_of_constructed rfl raw, ?_, rfl, ?_⟩
  · exact congrArg Block.constructed (g.measuredAt_measuredAt _)
  · simp

/-- Settles O48: with a negative span the engine falls with the count, through 0 at the zero. -/
theorem negativeSpanInvertsTheSlope : Obligations.NegativeSpanInvertsTheSlope := by
  intro s g raw hb hmp hmin
  have hspan : spanOf g.outputMin < 0 := by
    rw [spanOf_eq]
    omega
  have hflag : flagged g.outputMin = true := (flagged_iff g.outputMin).2 hmin.le
  have hexec := exec_getPressureR_of_ne hb raw ((spanOf_ne_zero_iff g.outputMin).1 hspan.ne)
  rw [hflag] at hexec
  rw [← countsOf_eq_extractLsb']
  refine ⟨_, _, hexec, rfl, ?_⟩
  rw [toInt_pressureOf _ hmp hspan.ne, ← quotient_self g.outputMin g.maxPressure.toInt]
  refine ⟨quotient_le_of_neg hmp hspan, quotient_le_of_neg hmp hspan, fun hstep => ?_⟩
  have hstep' : -spanOf g.outputMin ≤ g.maxPressure.toInt := by
    rw [spanOf_eq]
    omega
  exact ⟨quotient_lt_of_neg hspan hstep', quotient_lt_of_neg hspan hstep'⟩

end

section
/-! Sequences with CALIBRATE (44_calibrate.md section 2): a second one (R163), one on a reading just measured (R167), and the
warning level it leaves (R165). -/

namespace Sys2Proof.Machine

/-- CALIBRATE on a whole reading where the span is 0: the counts are stored, no zero is taken (R134, R161). -/
theorem exec_calibrate_of_readsWord_of_eq {s : State} {g : Regs} {raw : RawWord} (h : s.block = .constructed g)
    (hcounts : g.outputCounts = none) (hmin : g.outputMin = 14745#14) (hread : readsWord s.bus raw) :
    exec .calibrate s
      = .next (((s.withRead g.busAddr).withRegs (g.setCounts (countsOf raw))).answered
          6#3 (flagged g.outputMin) (.fail .degenerateCalibration)) := by
  have hbody : calibrateValue { regs := g, bus := s.bus }
      = .raise .degenerateCalibration { regs := g.setCounts (countsOf raw), bus := s.bus.afterRead g.busAddr } := by
    rw [calibrateValue, calibrate, currentCounts_none _ hcounts, takeReading_none, fetchRaw_readsWord g s.bus raw hread,
      Res.bind_ok, storeReading_of_eq raw _ hmin]
    rfl
  rw [exec_calibrate, onConstructed_of_raise h hbody]
  rfl

/-- A CALIBRATE that answered Ok leaves its value both as the zero and as the cached counts (R161). -/
theorem exec_calibrate_ok {s t : State} {warn : Bool} {v : Value} (hexec : exec .calibrate s = .next t)
    (hresp : t.responses = s.responses ++ [{ op := 6#3, warn := warn, result := .ok v }]) :
    ∃ g c, t.block = .constructed g ∧ g.outputCounts = some c ∧ g.outputMin = c ∧ g.calibrated = true
      ∧ warn = flagged c ∧ v = c.setWidth 48 := by
  cases hb : s.block with
  | unconstructed =>
    rw [exec_calibrate, onConstructed_of_unconstructed hb] at hexec
    cases hexec
    simp at hresp
  | constructed g =>
    cases hcounts : g.outputCounts with
    | some c =>
      rw [exec_calibrate_of_some hb hcounts] at hexec
      cases hexec
      obtain ⟨hwarn, hv⟩ : flagged c = warn ∧ c.setWidth 48 = v := by simpa using hresp
      exact ⟨_, c, rfl, hcounts, rfl, rfl, hwarn.symm, hv.symm⟩
    | none =>
      rcases nextDraw_cases s.bus with hdraw | ⟨raw, hread⟩ | ⟨f, hread⟩
      · rw [exec_calibrate_of_never hb hcounts hdraw] at hexec
        cases hexec
        simp at hresp
      · by_cases hmin : g.outputMin = 14745#14
        · rw [exec_calibrate_of_readsWord_of_eq hb hcounts hmin hread] at hexec
          cases hexec
          simp at hresp
        · rw [exec_calibrate_of_readsWord hb hcounts hmin hread] at hexec
          cases hexec
          obtain ⟨hwarn, hv⟩ : flagged (raw.extractLsb' 16 14) = warn ∧ (raw.extractLsb' 16 14).setWidth 48 = v := by
            simpa using hresp
          exact ⟨_, _, rfl, rfl, rfl, rfl, hwarn.symm, hv.symm⟩
      · rw [exec_calibrate_of_readFails hb hcounts hread] at hexec
        cases hexec
        simp at hresp

/-- Making the zero what it is changes nothing (R163). -/
theorem Regs.setZero_self {g : Regs} {c : Counts} (hmin : g.outputMin = c) (hcalibrated : g.calibrated = true) :
    g.setZero c = g := by
  rw [Regs.setZero, ← hmin, ← hcalibrated]

theorem pressureOf_self (c : Counts) (mp : RatedPressure) : pressureOf c c mp = 0#48 := by
  rw [pressureOf_eq, quotient_self]
  rfl

/-- A reading whose count is the zero has pressure 0 (R137 (b), R167). -/
theorem exec_getPressureR_of_zero {s : State} {g : Regs} (h : s.block = .constructed g) {raw : RawWord}
    (hzero : g.outputMin = countsOf raw) (hne : countsOf raw ≠ 14745#14) :
    exec (.getPressureR raw) s
      = .next ((s.withRegs ((g.setCounts (countsOf raw)).setPressure 0#48)).answered
          4#3 (flagged (countsOf raw)) (.ok 0#48)) := by
  rw [exec_getPressureR_of_ne h raw (hzero ▸ hne), hzero, pressureOf_self]

end Sys2Proof.Machine

open Sys2Proof Sys2Proof.Machine

/-- Settles O45: the first calibration left its count both as the zero and as the cached count the second takes. -/
theorem recalibrationChangesNothing : Obligations.RecalibrationChangesNothing := by
  intro s t warn v hexec hresp
  obtain ⟨g, c, hb, hcounts, hmin, hcalibrated, rfl, rfl⟩ := exec_calibrate_ok hexec hresp
  refine ⟨_, exec_calibrate_of_some hb hcounts, ?_, rfl, rfl⟩
  exact (congrArg Block.constructed (Regs.setZero_self hmin hcalibrated)).trans hb.symm

/-- Settles O46: by either path the calibration makes the reading's count the zero. -/
theorem calibratingOnAReadingZeroesIt : Obligations.CalibratingOnAReadingZeroesIt := by
  refine ⟨fun s g raw raw' hb hne hsame => ?_, fun s g raw raw' hb hinv hcounts hread hne hsame => ?_⟩ <;>
    rw [← hsame, ← countsOf_eq_extractLsb'] at hne ⊢
  · have hmeasured : (g.measuredAt (countsOf raw)).outputCounts = some (countsOf raw') := by
      rw [Regs.measuredAt_outputCounts, countsOf_eq_extractLsb', countsOf_eq_extractLsb', hsame]
    exact ⟨_, _, _, _, exec_getPressureR_of_constructed hb raw, exec_calibrate_of_some rfl hmeasured,
      exec_getPressureR_of_zero rfl rfl hne, rfl, rfl, rfl, rfl, rfl⟩
  · obtain ⟨hmin, _⟩ := hinv.of_outputCounts_none hcounts
    have hcalibrate := exec_calibrate_of_readsWord hb hcounts (by simp [hmin]) hread
    rw [← hsame, ← countsOf_eq_extractLsb'] at hcalibrate
    exact ⟨_, _, hcalibrate, exec_getPressureR_of_zero rfl rfl hne, rfl⟩

/-- Settles O47: the cached count becomes the zero whatever it is, and the warning level is a comparison of the zero. -/
theorem degenerateCalibrationIsWrittenAndFlagged : Obligations.DegenerateCalibrationIsWrittenAndFlagged := by
  intro s g c hb hcounts
  refine ⟨_, g.setZero c, exec_calibrate_of_some hb hcounts, rfl, rfl, fun hc => ?_, fun hc => ?_⟩
  · have hflag : flagged c = true := (flagged_iff c).2 hc
    exact ⟨hflag, by rw [hflag]; rfl⟩
  · have hflag : flagged c = false := by
      rw [← Bool.not_eq_true, flagged_iff]
      omega
    exact ⟨hflag, by rw [hflag]; rfl⟩

end

section
/-! READ_BOTH (30_encoding.md R75, 70_reset_and_hazards.md R223), by the way its FETCH_RAW ends. -/

namespace Sys2Proof.Machine

/-- GET_PRESSURE and GET_STATUS of one word on an instance. -/
theorem readBothOf_of_constructed {s : State} {g : Regs} (h : s.block = .constructed g) (raw : RawWord) :
    readBothOf raw s
      = .next (((s.withRegs ((g.measuredAt (countsOf raw)).setStatus (statusOf raw))).answered
          4#3 (flagged g.outputMin) (g.pressureResult (countsOf raw))).answered
          5#3 (flagged g.outputMin) (.ok ((statusOf raw).setWidth 48))) := by
  rw [readBothOf, exec_getPressureR_of_constructed h]
  refine (exec_getStatusR_of_constructed rfl raw).trans ?_
  rw [Regs.measuredAt_outputMin]
  rfl

/-- The FETCH_RAW returned a word: the other two commands are issued on it. -/
theorem readBoth_of_ok {s u : State} {op : OpBits} {warn : Bool} {raw : RawWord} (hwaiting : u.waiting = none)
    (hfetch : exec .fetchRaw s = .next (u.answered op warn (.ok (raw.setWidth 48)))) :
    readBoth s = readBothOf raw (u.answered op warn (.ok (raw.setWidth 48))) := by
  have hready : cmdReady (u.answered op warn (.ok (raw.setWidth 48))) = true := cmdReady_of_idle hwaiting
  have hword : (raw.setWidth 48).setWidth 32 = raw := BitVec.setWidth_setWidth_of_le raw (by decide)
  simp [readBoth, hfetch, hready, hword]

/-- The FETCH_RAW failed: nothing else is issued. -/
theorem readBoth_of_fail {s u : State} {op : OpBits} {warn : Bool} {f : Failure}
    (hfetch : exec .fetchRaw s = .next (u.answered op warn (.fail f))) :
    readBoth s = .next (u.answered op warn (.fail f)) := by
  simp [readBoth, hfetch]

/-- The FETCH_RAW waits: nothing else is issued. -/
theorem readBoth_of_waiting {s t : State} (hfetch : exec .fetchRaw s = .next t) (hready : cmdReady t = false) :
    readBoth s = .next t := by
  simp [readBoth, hfetch, hready]

theorem readBoth_of_readsWord {s : State} {g : Regs} (hwaiting : s.waiting = none) (h : s.block = .constructed g)
    {raw : RawWord} (hread : readsWord s.bus raw) :
    readBoth s = .next { (s.withRead g.busAddr).withRegs ((g.measuredAt (countsOf raw)).setStatus (statusOf raw)) with
      responses := s.responses
        ++ [{ op := 1#3, warn := flagged g.outputMin, result := .ok (raw.setWidth 48) },
            { op := 4#3, warn := flagged g.outputMin, result := g.pressureResult (countsOf raw) },
            { op := 5#3, warn := flagged g.outputMin, result := .ok ((statusOf raw).setWidth 48) }] } := by
  have hblock : ((s.withRead g.busAddr).answered 1#3 (flagged g.outputMin) (.ok (raw.setWidth 48))).block
      = .constructed g := h
  rw [readBoth_of_ok (u := s.withRead g.busAddr) hwaiting (exec_fetchRaw_of_readsWord h hread),
    readBothOf_of_constructed hblock raw]
  simp [State.answered, State.withRegs, State.withRead]

end Sys2Proof.Machine

open Sys2Proof Sys2Proof.Machine

/-- Settles O49: the word of the one read is handed to both commands; where none comes back neither is issued. -/
theorem readBothUsesOneSample : Obligations.ReadBothUsesOneSample := by
  refine ⟨fun s g raw hwaiting hb hmin hread => ?_, fun s g f hwaiting hb hread => ?_,
    fun s g raw hwaiting hb hmin hread => ?_, fun s hb => ?_, fun s g hb hdraw => ?_⟩
  · rw [← countsOf_eq_extractLsb', ← statusOf_eq_extractLsb', readBoth_of_readsWord hwaiting hb hread, Regs.measuredAt,
      Regs.pressureResult, if_neg hmin, if_neg hmin]
    rfl
  · exact readBoth_of_fail (exec_fetchRaw_of_readFails hb hread)
  · have hwarn : flagged g.outputMin = true := by rw [hmin]; rfl
    rw [← countsOf_eq_extractLsb', ← statusOf_eq_extractLsb', readBoth_of_readsWord hwaiting hb hread, Regs.measuredAt,
      Regs.pressureResult, if_pos hmin, if_pos hmin, hwarn]
    rfl
  · exact readBoth_of_fail (exec_fetchRaw_of_unconstructed hb)
  · have hread : busReadOf .fetchRaw s.block = some g.busAddr := by rw [hb]; rfl
    exact readBoth_of_waiting (exec_of_never hread hdraw) rfl

end
